-- ==== Sys2Proof/Word.lean ====
section
/-! DEFINITION. The widths of the SEQ32 block: words, bytes and bus offsets. -/

namespace Sys2Proof

/-- A `u32` of 00_scope.md R12: every register value. Addition and subtraction are modulo 2^32. -/
abbrev Word := BitVec 32

/-- A byte of SEGMEM (10_state.md R37) or of STATUS (R26). -/
abbrev Byte := BitVec 8

/-- A 17-bit byte offset from BASE on the host bus (20_memory.md R50). -/
abbrev Offset := BitVec 17

end Sys2Proof
end

