-- ==== Sys2Proof/Config.lean ====
section
/-! DEFINITION. What an instance of the block fixes, and the values the spec leaves free. -/

namespace Sys2Proof

/-- The two readings of the SEQ relations at the antipode, SEQ_FORM (40_seqarith.md R97). -/
inductive SeqForm where
  /-- `sint32(b - a)` compared with 0: the default. -/
  | bMinusAPos
  /-- `sint32(a - b)` compared with 0. -/
  | aMinusBNeg
deriving DecidableEq, Repr

/-- The implementation parameters of 00_scope.md R9 and the switch of 40_seqarith.md R97. They are
configuration, not block state (10_state.md R38); the state carries them because the spec has a model take them
as arguments (DESIGN CHOICE, log 2). Their legal ranges are `Params.Legal`. -/
structure Params where
  /-- N_TRK, the number of ABT tracker slots. -/
  nTrk : Nat
  /-- N_FILT, the number of option whitelists. -/
  nFilt : Nat
  /-- CAP_MAX, the largest capacity TINIT accepts. -/
  capMax : Nat
  /-- SEG_MAX, the size of SEGMEM in bytes. -/
  segMax : Nat
  /-- SEQ_FORM. -/
  seqForm : SeqForm
deriving DecidableEq, Repr

/-- The vector configuration VCFG of 95_test_vectors.md section 0. DESIGN CHOICE, unsafe (log 2): the instance
`State.reset` has; statements range over every legal configuration instead. -/
def Params.vcfg : Params :=
  { nTrk := 4, nFilt := 2, capMax := 65536, segMax := 1024, seqForm := .bMinusAPos }

/-- What byte `i` of SEGMEM holds after reset number `n` until the host writes it: a free value, one draw per
byte (10_state.md R37, 93_implementation_defined.md U1). Nothing is known of it (log 3). -/
opaque Config.segDraw (n i : Nat) : Byte

/-- BASE, the platform's base address of the block (20_memory.md R50, U3). No rule reads it (log 8). -/
opaque Config.base : Nat

end Sys2Proof
end

