-- ==== Sys2Proof/Syntax.lean ====
section
/-! DEFINITION. The commands of the block: one constructor per row of spec/opcode_table.json. -/

namespace Sys2Proof

/-- The commands of 30_encoding.md R75. `idx` is the IDX operand of R72, the slot of an ABT command or the filter
of VOPT; `Instr.wellFormed` bounds it. All other operands come from registers (R73). -/
inductive Instr where
  /-- NOP, 43_control.md R170. -/
  | nop
  /-- SLT, 40_seqarith.md R93. -/
  | slt
  /-- SLE, 40_seqarith.md R94. -/
  | sle
  /-- SDIST, 40_seqarith.md R95. -/
  | sdist
  /-- TINIT, 42_acktracker.md R138. -/
  | tinit (idx : Nat)
  /-- TREL, 42_acktracker.md R140. -/
  | trel (idx : Nat)
  /-- TQUEUE, 42_acktracker.md R141. -/
  | tqueue (idx : Nat)
  /-- TMARK, 42_acktracker.md R142. -/
  | tmark (idx : Nat)
  /-- TFREE, 42_acktracker.md R143. -/
  | tfree (idx : Nat)
  /-- TACK, 42_acktracker.md R145. -/
  | tack (idx : Nat)
  /-- TRTX, 42_acktracker.md R149. -/
  | trtx (idx : Nat)
  /-- TRMARK, 42_acktracker.md R150. -/
  | trmark (idx : Nat)
  /-- VSEG, 41_validator.md R117. -/
  | vseg
  /-- VOPT, 41_validator.md R126. -/
  | vopt (idx : Nat)
deriving DecidableEq, Repr

end Sys2Proof
end

