-- ==== Sys2Proof/WellFormed.lean ====
section
/-! DEFINITION. Which commands have an encoding, and which parameter values are legal. -/

namespace Sys2Proof

/-- A command is well formed when it has an encoding: its IDX is an 8-bit unsigned number (30_encoding.md R72). -/
def Instr.wellFormed : Instr → Bool
  | .nop => true
  | .slt => true
  | .sle => true
  | .sdist => true
  | .tinit idx => decide (idx < 256)
  | .trel idx => decide (idx < 256)
  | .tqueue idx => decide (idx < 256)
  | .tmark idx => decide (idx < 256)
  | .tfree idx => decide (idx < 256)
  | .tack idx => decide (idx < 256)
  | .trtx idx => decide (idx < 256)
  | .trmark idx => decide (idx < 256)
  | .vseg => true
  | .vopt idx => decide (idx < 256)

/-- The legal ranges of 00_scope.md R9. -/
abbrev Params.Legal (p : Params) : Prop :=
  (1 ≤ p.nTrk ∧ p.nTrk ≤ 256) ∧ (1 ≤ p.nFilt ∧ p.nFilt ≤ 256) ∧
  (1 ≤ p.capMax ∧ p.capMax ≤ 2 ^ 31 - 1) ∧
  (60 ≤ p.segMax ∧ p.segMax ≤ 65532 ∧ p.segMax % 4 = 0)

end Sys2Proof
end

