-- ==== Sys2Proof/Decode.lean ====
section
/-! DEFINITION. Decoding a command word (30_encoding.md R70 to R78), then encoding a command. -/

namespace Sys2Proof

/-- OPC, bits [7:0] of a command word (30_encoding.md R70). -/
def opcField (w : Word) : Byte := w.extractLsb' 0 8

/-- IDX, bits [15:8] of a command word, zero-extended (30_encoding.md R70, R72). -/
def idxField (w : Word) : Nat := (w.extractLsb' 8 8).toNat

/-- RSV, bits [31:16] of a command word (30_encoding.md R70). -/
def rsvField (w : Word) : BitVec 16 := w.extractLsb' 16 16

/-- One row of the opcode map of 30_encoding.md R75. -/
structure Row where
  /-- The bits the row fixes. -/
  mask : Word
  /-- Their values (the row's `match`). -/
  pattern : Word
  /-- The command the row encodes, given IDX. -/
  build : Nat → Instr

/-- A word encodes the row's command exactly when `(w & mask) = match` (30_encoding.md R75). -/
def Row.covers (r : Row) (w : Word) : Bool := w &&& r.mask == r.pattern

/-- The opcode map of 30_encoding.md R75, row by row. -/
def opcodeMap : List Row :=
  [ { mask := 0xFFFFFFFF, pattern := 0x00000000, build := fun _ => .nop },
    { mask := 0xFFFFFFFF, pattern := 0x00000010, build := fun _ => .slt },
    { mask := 0xFFFFFFFF, pattern := 0x00000011, build := fun _ => .sle },
    { mask := 0xFFFFFFFF, pattern := 0x00000012, build := fun _ => .sdist },
    { mask := 0xFFFF00FF, pattern := 0x00000020, build := .tinit },
    { mask := 0xFFFF00FF, pattern := 0x00000021, build := .trel },
    { mask := 0xFFFF00FF, pattern := 0x00000022, build := .tqueue },
    { mask := 0xFFFF00FF, pattern := 0x00000023, build := .tmark },
    { mask := 0xFFFF00FF, pattern := 0x00000024, build := .tfree },
    { mask := 0xFFFF00FF, pattern := 0x00000025, build := .tack },
    { mask := 0xFFFF00FF, pattern := 0x00000026, build := .trtx },
    { mask := 0xFFFF00FF, pattern := 0x00000027, build := .trmark },
    { mask := 0xFFFFFFFF, pattern := 0x00000030, build := fun _ => .vseg },
    { mask := 0xFFFF00FF, pattern := 0x00000031, build := .vopt } ]

/-- The three cases of an illegal word (30_encoding.md R76). The block reports all of them as ERR_OPCODE; the name
is for a reader only (log 9). -/
inductive IllegalCause where
  /-- An OPC not in the opcode map. -/
  | unassignedOpc
  /-- RSV is not 0. -/
  | reservedNotZero
  /-- IDX is not 0 for a command whose IDX must be 0. -/
  | indexNotZero
deriving DecidableEq, Repr

/-- What a word decodes to: `Command or Illegal` (30_encoding.md R76). -/
inductive Decoded where
  | command (i : Instr)
  | illegal (why : IllegalCause)
deriving DecidableEq, Repr

/-- Which case of 30_encoding.md R76 an illegal word falls under. -/
def illegalCause (w : Word) : IllegalCause :=
  if opcodeMap.all (fun r => opcField r.pattern != opcField w) then .unassignedOpc
  else if rsvField w != 0 then .reservedNotZero
  else .indexNotZero

/-- The decoder of 30_encoding.md R76, total on every 32-bit word and the same in every state (R78). -/
def decode (w : Word) : Decoded :=
  match opcodeMap.find? (·.covers w) with
  | some r => .command (r.build (idxField w))
  | none => .illegal (illegalCause w)

/-- The decoder on a row's bits as spec/opcode_table.json numbers them. A command is one 32-bit word (R70) that
crosses the bus as a word, so no byte order arises (20_memory.md R60 (a)); bits above 31 must be 0. -/
def decodeTableWord (nbits w : Nat) : Option Instr :=
  if 2 ^ 32 ≤ w % 2 ^ nbits then none
  else
    match decode (BitVec.ofNat 32 (w % 2 ^ nbits)) with
    | .command i => some i
    | .illegal _ => none

/-- The operation code of a command (30_encoding.md R75). -/
def Instr.opc : Instr → Byte
  | .nop => 0x00
  | .slt => 0x10
  | .sle => 0x11
  | .sdist => 0x12
  | .tinit _ => 0x20
  | .trel _ => 0x21
  | .tqueue _ => 0x22
  | .tmark _ => 0x23
  | .tfree _ => 0x24
  | .tack _ => 0x25
  | .trtx _ => 0x26
  | .trmark _ => 0x27
  | .vseg => 0x30
  | .vopt _ => 0x31

/-- The IDX operand of a command, 0 where IDX must be 0 (30_encoding.md R72, R75). -/
def Instr.index : Instr → Nat
  | .nop => 0
  | .slt => 0
  | .sle => 0
  | .sdist => 0
  | .tinit idx => idx
  | .trel idx => idx
  | .tqueue idx => idx
  | .tmark idx => idx
  | .tfree idx => idx
  | .tack idx => idx
  | .trtx idx => idx
  | .trmark idx => idx
  | .vseg => 0
  | .vopt idx => idx

/-- The word of a well-formed command: `{RSV = 0, IDX, OPC}` (30_encoding.md R70). -/
def encode (i : Instr) : Word := 0#16 ++ BitVec.ofNat 8 i.index ++ i.opc

end Sys2Proof
end

