-- ==== Sys2Proof/Machine/State.lean ====
section
/-! DEFINITION. The state of the block (10_state.md R40), the host's events, the ways a step can stop, and reset. -/

namespace Sys2Proof.Machine

/-- Why the machine stops with a fault: never. "No behaviour of the block is treated as `fault` or `stuck`: every
command completes with a status" (93_implementation_defined.md; 60_exceptions.md R175, R193). STATUS codes other
than OK are next states. Safe: a step that could fault cannot be written down. -/
inductive Fault where
deriving DecidableEq, Repr

/-- Why the machine refuses. -/
inductive Refusal where
  /-- Raised by an arm of `exec` for a command without a meaning. No arm raises it: every command has its meaning.
  Safe. -/
  | notModelled (mnemonic : String)
  /-- Raised by `perform` for a host read or write while reset is asserted: such an access has no meaning
  (70_reset_and_hazards.md R195, 93_implementation_defined.md U5). Safe. -/
  | accessDuringReset
deriving DecidableEq, Repr

/-- VCTRL (10_state.md R29). Bits [31:7] are reserved and not stored. -/
structure Vctrl where
  /-- AF, bit [0]: 0 IPv4, 1 IPv6. -/
  af : BitVec 1
  /-- DTYPE, bits [2:1]: 0 unicast, 1 multicast, 2 broadcast, 3 reserved. -/
  dtype : BitVec 2
  /-- ASTATE, bits [5:3]: 0 OFFLINE, 1 ASSIGN, 2 ONLINE, 3 ONHOLD, 4 CLOSING, 5 UNASSIGNED, 6 and 7 reserved. -/
  astate : BitVec 3
  /-- CSUMOK, bit [6]: a lower layer has verified the checksum. -/
  csumok : BitVec 1
deriving DecidableEq, Repr

/-- One whitelist, as its eight words WLf_0 to WLf_7 (10_state.md R32). -/
abbrev Whitelist := Vector Word 8

/-- The stored fields of one tracker slot (10_state.md R33). AVAIL and TAIL are derived (R34). -/
structure Slot where
  /-- Allocated by TINIT and not yet released by TREL. -/
  active : Bool
  /-- Buffer capacity in bytes. -/
  cap : Word
  /-- Bytes queued: unsent plus transmitted but unacknowledged. -/
  used : Word
  /-- Bytes transmitted and not yet acknowledged. -/
  send : Word
  /-- Bytes of SEND transmitted in the current (re)transmission round. -/
  curr : Word
  /-- Sequence number of the oldest unacknowledged data byte. -/
  una : Word
  /-- Sequence number of the next new data byte to send. -/
  nxt : Word
  /-- Total bytes freed since TINIT, modulo 2^32. -/
  start : Word
  /-- Ring index of the first queued byte. -/
  head : Word
deriving DecidableEq, Repr

/-- A slot at reset and after TREL: every field 0 (10_state.md R33, 42_acktracker.md R140). -/
def Slot.free : Slot :=
  { active := false, cap := 0, used := 0, send := 0, curr := 0, una := 0, nxt := 0, start := 0, head := 0 }

/-- What the host does to the block, one event a step (00_scope.md R19, 70_reset_and_hazards.md R212). The offset
is relative to BASE (20_memory.md R50). -/
inductive BusEvent where
  /-- A write of one 32-bit word. -/
  | write (a : Offset) (v : Word)
  /-- A read of one 32-bit word. -/
  | read (a : Offset)
  /-- The reset input changes to asserted (`true`) or released (`false`), 70_reset_and_hazards.md R195. -/
  | resetInput (asserted : Bool)
deriving DecidableEq, Repr

/-- The state record of 10_state.md R40, with the reset input and the model's own fields. -/
structure State where
  /-- The configuration of the instance (00_scope.md R9); no step changes it (70_reset_and_hazards.md R198). -/
  cfg : Params
  /-- OPA (10_state.md R22). -/
  opa : Word
  /-- OPB (10_state.md R22). -/
  opb : Word
  /-- RES0 (10_state.md R22). -/
  res0 : Word
  /-- RES1 (10_state.md R22). -/
  res1 : Word
  /-- STATUS.CODE (10_state.md R26). -/
  statusCode : Byte
  /-- STATUS.LASTOPC (10_state.md R26). -/
  statusLastOpc : Byte
  /-- VLEN (10_state.md R28). -/
  vlen : Word
  /-- VCTRL (10_state.md R29). -/
  vctrl : Vctrl
  /-- SRCADDR0 to SRCADDR3 (10_state.md R30). -/
  srcAddr : Vector Word 4
  /-- DSTADDR0 to DSTADDR3 (10_state.md R30). -/
  dstAddr : Vector Word 4
  /-- FLAGREJ0 (10_state.md R31). -/
  flagRej0 : Word
  /-- FLAGREJ1 (10_state.md R31). -/
  flagRej1 : Word
  /-- WL, N_FILT whitelists (10_state.md R32). -/
  wl : List Whitelist
  /-- T, N_TRK tracker slots (10_state.md R33). -/
  slots : List Slot
  /-- The bytes of SEGMEM the host has written since reset, by index, rising (10_state.md R37, log 4). -/
  segmem : List Host.Cell
  /-- The reset input is asserted (70_reset_and_hazards.md R195). -/
  inReset : Bool
  /-- The model's own: how many times reset has been released, which selects the draws of SEGMEM (log 3). -/
  resetCount : Nat
  /-- The model's own: the host's events not yet performed, in arrival order (20_memory.md R62, log 1). -/
  bus : List BusEvent
  /-- The model's own: the values the host's reads returned, in order (70_reset_and_hazards.md R211, log 1). -/
  reads : List Word
deriving DecidableEq, Repr

/-- The reset state of an instance with configuration `p` (70_reset_and_hazards.md R196). -/
def State.resetFor (p : Params) : State :=
  { cfg := p
    opa := 0
    opb := 0
    res0 := 0
    res1 := 0
    statusCode := 0
    statusLastOpc := 0
    vlen := 0
    vctrl := { af := 0, dtype := 0, astate := 0, csumok := 0 }
    srcAddr := Vector.replicate 4 0
    dstAddr := Vector.replicate 4 0
    flagRej0 := 0xC8C8CBCB
    flagRej1 := 0xC8C8CBCB
    wl := List.replicate p.nFilt (Vector.replicate 8 0)
    slots := List.replicate p.nTrk Slot.free
    segmem := []
    inReset := false
    resetCount := 0
    bus := []
    reads := [] }

/-- The machine right after reset, reset released (70_reset_and_hazards.md R195, R196), for the vector
configuration VCFG (log 2). -/
def State.reset : State := State.resetFor Params.vcfg

end Sys2Proof.Machine
end

