-- ==== Sys2Proof/Machine/Ops.lean ====
section
/-! DEFINITION. The named operations over SEGMEM, the slots and the result registers. The block takes no exception
and has no return from one (60_exceptions.md R175, R182, R183); `raiseErr` is the one shared way a command ends in
an error (R179), `finish` the one way it succeeds (R178). -/

namespace Sys2Proof.Machine

/-- What a command or an access gives. -/
abbrev Result := Host.Outcome State Fault Refusal

/-! ## Words -/

/-- Bool-to-word (00_scope.md R14). -/
def b2w (b : Bool) : Word := if b then 1 else 0

/-- `min` on `u32`, unsigned (00_scope.md R12). -/
def minWord (a b : Word) : Word := if a ≤ b then a else b

/-- A word as four bytes, bits [31:24] first (20_memory.md R56, 41_validator.md R111). -/
def bytesOf (v : Word) : List Byte :=
  [v.extractLsb' 24 8, v.extractLsb' 16 8, v.extractLsb' 8 8, v.extractLsb' 0 8]

/-! ## Segment memory -/

/-- The byte a written-bytes list holds at an index, if it was written. -/
def Memory.lookup : List Host.Cell → Nat → Option Byte
  | [], _ => none
  | (k, b) :: m, i => if k = i then some b else Memory.lookup m i

/-- Write one byte, keeping the indices strictly rising. -/
def Memory.write : List Host.Cell → Nat → Byte → List Host.Cell
  | [], i, b => [(i, b)]
  | (k, c) :: m, i, b =>
    if i < k then (i, b) :: (k, c) :: m
    else if i = k then (i, b) :: m
    else (k, c) :: Memory.write m i b

/-- Write bytes at consecutive indices. -/
def Memory.writeAll : List Host.Cell → Nat → List Byte → List Host.Cell
  | m, _, [] => m
  | m, i, b :: bs => Memory.writeAll (Memory.write m i b) (i + 1) bs

/-- The canonical form: strictly rising indices. A listed byte is a written one, which no unlisted byte is
(log 4). -/
abbrev Memory.wf (m : List Host.Cell) : Prop := m.Pairwise (fun c d => c.1 < d.1)

/-- Every listed index lies below `size`. -/
abbrev Memory.within (size : Nat) (m : List Host.Cell) : Prop := ∀ c ∈ m, c.1 < size

/-- What byte `i` of SEGMEM reads as when the host has not written it since reset: a draw (10_state.md R37). -/
def unwrittenByte (s : State) (i : Nat) : Byte := Config.segDraw s.resetCount i

/-- `SegRead(i)` (00_scope.md R13): the byte at index `i` of SEGMEM. -/
def segRead (s : State) (i : Nat) : Byte := (Memory.lookup s.segmem i).getD (unwrittenByte s i)

/-- The SEGMEM window's read of word `k`, big-endian lanes (20_memory.md R57). -/
def segReadWord (s : State) (k : Nat) : Word :=
  segRead s (4 * k) ++ segRead s (4 * k + 1) ++ segRead s (4 * k + 2) ++ segRead s (4 * k + 3)

/-- The SEGMEM window's write of word `k`, big-endian lanes (20_memory.md R56). -/
def segWriteWord (k : Nat) (v : Word) (s : State) : State :=
  { s with segmem := Memory.writeAll s.segmem (4 * k) (bytesOf v) }

/-! ## Ending a command -/

/-- The status codes other than OK (60_exceptions.md R176). -/
inductive ErrCode where
  /-- The word decodes to Illegal. -/
  | opcode
  /-- IDX is not below N_TRK or N_FILT. -/
  | index
  /-- TINIT on an active slot, or another ABT command on an inactive one. -/
  | state
  /-- An operand is out of its legal range. -/
  | arg
  /-- A count exceeds what the slot holds. -/
  | precond
deriving DecidableEq, Repr

/-- The numbers of the status codes (10_state.md R26, 60_exceptions.md R176). -/
def errCodeByte : ErrCode → Byte
  | .opcode => 0x01
  | .index => 0x02
  | .state => 0x03
  | .arg => 0x04
  | .precond => 0x05

/-- Write STATUS.CODE and STATUS.LASTOPC (10_state.md R26). -/
def setStatus (code lastOpc : Byte) (s : State) : State :=
  { s with statusCode := code, statusLastOpc := lastOpc }

/-- `finish(r0, r1)` (60_exceptions.md R178), where `opc` is bits [7:0] of the command word. -/
def finish (opc : Byte) (r0 r1 : Word) (s : State) : State :=
  { setStatus 0x00 opc s with res0 := r0, res1 := r1 }

/-- `raise Err(CODE)` (60_exceptions.md R179): STATUS is written and nothing else changes. -/
def raiseErr (e : ErrCode) (opc : Byte) (s : State) : State := setStatus (errCodeByte e) opc s

/-! ## Slots -/

/-- `T[n]` (00_scope.md R13), for `n < N_TRK`. -/
def State.slot (s : State) (n : Nat) : Slot := s.slots.getD n Slot.free

/-- `T[n] <- t` (00_scope.md R13). -/
def State.setSlot (s : State) (n : Nat) (t : Slot) : State := { s with slots := s.slots.set n t }

/-- AVAIL, derived (10_state.md R34). -/
def Slot.avail (t : Slot) : Word := t.cap - t.used

/-- `ring_add(h, n)` for capacity `cap` (42_acktracker.md R136). -/
def ringAdd (cap h n : Word) : Word := if cap = 0 then 0 else (h + n) % cap

/-- TAIL, derived (10_state.md R34). -/
def Slot.tail (t : Slot) : Word := ringAdd t.cap t.head t.used

/-- `free_front` on a slot (42_acktracker.md R137), for `n` at most USED. -/
def freeFront (n : Word) (t : Slot) : Slot :=
  let send' := t.send - minWord n t.send
  let una' := t.una + n
  { t with
    used := t.used - n
    send := send'
    curr := t.curr - minWord n t.curr
    una := una'
    nxt := una' + send'
    start := t.start + n
    head := ringAdd t.cap t.head n }

/-- The checks every ABT command but TINIT makes first, in order: the index, then ACTIVE (42_acktracker.md R131,
R132). The rest of the command gets the slot. -/
def withActiveSlot (opc : Byte) (n : Nat) (s : State) (k : Slot → State) : State :=
  if s.cfg.nTrk ≤ n then raiseErr .index opc s
  else if (s.slot n).active = false then raiseErr .state opc s
  else k (s.slot n)

/-- The end of an ABT command that writes slot `n` and succeeds, as one atomic step (60_exceptions.md R178). -/
def finishSlot (opc : Byte) (n : Nat) (t : Slot) (r0 r1 : Word) (s : State) : State :=
  finish opc r0 r1 (s.setSlot n t)

end Sys2Proof.Machine
end

