-- ==== Sys2Proof/Machine/Operands.lean ====
section
/-! DEFINITION. The operands commands read: the header fields of the segment, the pseudo-header and checksummed
string, and the whitelist bits. (IDX is decoded in Decode.lean; OPA and OPB are read as they stand, 30_encoding.md
R73.) -/

namespace Sys2Proof.Machine

/-- `doff`, byte 12 bits [7:4] (41_validator.md R103). -/
def segDoff (s : State) : BitVec 4 := (segRead s 12).extractLsb' 4 4

/-- `flags`, byte 13 bits [5:0] (41_validator.md R103). -/
def segFlags (s : State) : BitVec 6 := (segRead s 13).extractLsb' 0 6

/-- The header length in bytes, `4·doff`. -/
def headerLength (s : State) : Nat := 4 * (segDoff s).toNat

/-- `SEGMEM[0 .. n-1]`. -/
def segBytes (s : State) (n : Nat) : List Byte := (List.range n).map (segRead s)

/-- The pseudo-header P (41_validator.md R111). -/
def pseudoHeader (s : State) : List Byte :=
  if s.vctrl.af = 0 then
    bytesOf s.srcAddr[0] ++ bytesOf s.dstAddr[0] ++
      [0x00, 0x06, s.vlen.extractLsb' 8 8, s.vlen.extractLsb' 0 8]
  else
    s.srcAddr.toList.flatMap bytesOf ++ s.dstAddr.toList.flatMap bytesOf ++ bytesOf s.vlen ++
      [0x00, 0x00, 0x00, 0x06]

/-- The checksummed string D, padded to an even length (41_validator.md R111). -/
def checksummed (s : State) : List Byte :=
  pseudoHeader s ++ segBytes s s.vlen.toNat ++ (if s.vlen.toNat % 2 = 1 then [0x00] else [])

/-- The sum of the 16-bit big-endian words of a byte string (41_validator.md R110). D has even length; a last byte
without a partner, which D never has, would count as if padded with a zero byte (log 10). -/
def wordSum : List Byte → Nat
  | [] => 0
  | [a] => 256 * a.toNat
  | a :: b :: rest => 256 * a.toNat + b.toNat + wordSum rest

/-- The loop of 41_validator.md R110, at most `fuel` times round. -/
def foldLoop : Nat → Nat → Nat
  | 0, n => n
  | fuel + 1, n => if n > 0xFFFF then foldLoop fuel (n % 65536 + n / 65536) else n

/-- `fold(S)` (41_validator.md R110). Each round lowers a value above 0xFFFF, so S rounds are enough (log 10). -/
def foldSum (n : Nat) : Nat := foldLoop n n

/-- `csum_ok(D)` (41_validator.md R110). -/
def csumOk (d : List Byte) : Bool := foldSum (wordSum d) == 0xFFFF

/-- Whitelist `f`, for `f < N_FILT` (10_state.md R32). -/
def State.whitelist (s : State) (f : Nat) : Whitelist := s.wl.getD f (Vector.replicate 8 0)

/-- `WL[f][k]`: bit `k mod 32` of word `k div 32` (10_state.md R32). -/
def whitelisted (s : State) (f : Nat) (k : Byte) : Bool :=
  ((s.whitelist f).get (Fin.ofNat 8 (k.toNat / 32))).getLsbD (k.toNat % 32)

end Sys2Proof.Machine
end

