-- ==== Sys2Proof/Machine/Bus.lean ====
section
/-! DEFINITION. The address map (20_memory.md R50 to R58): which register or window word an offset names, what a read
of it returns and what a write to it stores. Running a command is in Command.lean. -/

namespace Sys2Proof.Machine

/-- The places of the map of 20_memory.md R52. Indices beyond N_FILT, N_TRK or SEG_MAX name reserved places. -/
inductive Location where
  | id
  | cfg0
  | cfg1
  | status
  | cmd
  | opa
  | opb
  | res0
  | res1
  | vlen
  | vctrl
  /-- SRCADDRj. -/
  | srcAddr (j : Fin 4)
  /-- DSTADDRj. -/
  | dstAddr (j : Fin 4)
  | flagRej0
  | flagRej1
  /-- Word WLf_j of the whitelist window (R53). -/
  | wlWord (f : Nat) (j : Fin 8)
  /-- Word `j` of slot `n`'s window (R54, R55). -/
  | slotWord (n : Nat) (j : Fin 16)
  /-- Word `k` of the SEGMEM window (R56). -/
  | segWord (k : Nat)
  /-- An offset the map gives to nothing (R58). -/
  | reserved
deriving DecidableEq, Repr

/-- Address bits [1:0] are ignored (20_memory.md R51). -/
def wordOffset (a : Offset) : Nat := (a &&& 0x1FFFC).toNat

/-- The effective address of an access on the host bus, `BASE + offset` (43_control.md R174). -/
def effectiveAddress (a : Offset) : Nat := Config.base + wordOffset a

/-- The control region of 20_memory.md R52. -/
def controlLocation : Nat → Location
  | 0x00 => .id
  | 0x04 => .cfg0
  | 0x08 => .cfg1
  | 0x0C => .status
  | 0x10 => .cmd
  | 0x14 => .opa
  | 0x18 => .opb
  | 0x1C => .res0
  | 0x20 => .res1
  | 0x24 => .vlen
  | 0x28 => .vctrl
  | 0x30 => .srcAddr 0
  | 0x34 => .srcAddr 1
  | 0x38 => .srcAddr 2
  | 0x3C => .srcAddr 3
  | 0x40 => .dstAddr 0
  | 0x44 => .dstAddr 1
  | 0x48 => .dstAddr 2
  | 0x4C => .dstAddr 3
  | 0x50 => .flagRej0
  | 0x54 => .flagRej1
  | _ => .reserved

/-- The place an offset names (20_memory.md R51 to R58). -/
def locate (a : Offset) : Location :=
  let o := wordOffset a
  if o < 0x02000 then controlLocation o
  else if o < 0x04000 then .wlWord ((o - 0x02000) / 32) (Fin.ofNat 8 ((o - 0x02000) % 32 / 4))
  else if o < 0x08000 then .slotWord ((o - 0x04000) / 64) (Fin.ofNat 16 ((o - 0x04000) % 64 / 4))
  else if o < 0x10000 then .reserved
  else .segWord ((o - 0x10000) / 4)

/-- CFG0 (10_state.md R25). -/
def cfg0Word (p : Params) : Word :=
  BitVec.ofNat 8 (p.nFilt - 1) ++ BitVec.ofNat 8 (p.nTrk - 1) ++ BitVec.ofNat 16 p.segMax

/-- STATUS (10_state.md R26): BUSY and the reserved bits read 0. -/
def statusWord (s : State) : Word := 0#16 ++ s.statusLastOpc ++ s.statusCode

/-- VCTRL (10_state.md R29): bits [31:7] read 0. -/
def vctrlWord (c : Vctrl) : Word := 0#25 ++ c.csumok ++ c.astate ++ c.dtype ++ c.af

/-- VCTRL from a written word: bits [31:7] are ignored (10_state.md R29). -/
def vctrlOfWord (v : Word) : Vctrl :=
  { af := v.extractLsb' 0 1, dtype := v.extractLsb' 1 2, astate := v.extractLsb' 3 3, csumok := v.extractLsb' 6 1 }

/-- The words of a slot's window (20_memory.md R55). -/
def slotWindowWord (t : Slot) (j : Fin 16) : Word :=
  match j.val with
  | 0 => b2w t.active
  | 1 => t.cap
  | 2 => t.used
  | 3 => t.send
  | 4 => t.curr
  | 5 => t.avail
  | 6 => t.una
  | 7 => t.nxt
  | 8 => t.start
  | 9 => t.head
  | 10 => t.tail
  | _ => 0

/-- What a read of a place returns (20_memory.md R52 to R58; a read of CMD returns 0, 10_state.md R27). -/
def readLocation (s : State) : Location → Word
  | .id => 0x53455131
  | .cfg0 => cfg0Word s.cfg
  | .cfg1 => BitVec.ofNat 32 s.cfg.capMax
  | .status => statusWord s
  | .cmd => 0
  | .opa => s.opa
  | .opb => s.opb
  | .res0 => s.res0
  | .res1 => s.res1
  | .vlen => s.vlen
  | .vctrl => vctrlWord s.vctrl
  | .srcAddr j => s.srcAddr.get j
  | .dstAddr j => s.dstAddr.get j
  | .flagRej0 => s.flagRej0
  | .flagRej1 => s.flagRej1
  | .wlWord f j => if f < s.cfg.nFilt then (s.whitelist f).get j else 0
  | .slotWord n j => if n < s.cfg.nTrk then slotWindowWord (s.slot n) j else 0
  | .segWord k => if 4 * k < s.cfg.segMax then segReadWord s k else 0
  | .reserved => 0

/-- What a write to a place other than CMD does (20_memory.md R52 to R58): a read-write place stores the word, any
other ignores it. CMD is `performWrite`'s. -/
def writeLocation (v : Word) (s : State) : Location → State
  | .id => s
  | .cfg0 => s
  | .cfg1 => s
  | .status => s
  | .cmd => s
  | .opa => { s with opa := v }
  | .opb => { s with opb := v }
  | .res0 => s
  | .res1 => s
  | .vlen => { s with vlen := v }
  | .vctrl => { s with vctrl := vctrlOfWord v }
  | .srcAddr j => { s with srcAddr := s.srcAddr.set j v }
  | .dstAddr j => { s with dstAddr := s.dstAddr.set j v }
  | .flagRej0 => { s with flagRej0 := v }
  | .flagRej1 => { s with flagRej1 := v }
  | .wlWord f j => if f < s.cfg.nFilt then { s with wl := s.wl.set f ((s.whitelist f).set j v) } else s
  | .slotWord _ _ => s
  | .segWord k => if 4 * k < s.cfg.segMax then segWriteWord k v s else s
  | .reserved => s

/-- `MemRead(addr, 4)` (00_scope.md R13). -/
def busRead (a : Offset) (s : State) : Word := readLocation s (locate a)

end Sys2Proof.Machine
end

