-- ==== Sys2Proof/Machine/Flags.lean ====
section
/-! DEFINITION. The truth values commands compute. The block has no condition codes (10_state.md R23); these are the
SEQ relations (40_seqarith.md), the acknowledgement class (42_acktracker.md R144) and the flag-combination check
(41_validator.md R113). -/

namespace Sys2Proof.Machine

/-! ## Sequence relations -/

/-- `distance(a, b)` (40_seqarith.md R96). -/
def distance (a b : Word) : Word := b - a

/-- `is_lower(a, b)` (40_seqarith.md R91). -/
def isLower (a b : Word) : Bool := decide (0 < (b - a).toInt)

/-- `is_lower_or_equal(a, b)` (40_seqarith.md R92). -/
def isLowerOrEqual (a b : Word) : Bool := decide (0 ≤ (b - a).toInt)

/-- `is_lower` under a value of SEQ_FORM (40_seqarith.md R97). -/
def isLowerIn : SeqForm → Word → Word → Bool
  | .bMinusAPos, a, b => isLower a b
  | .aMinusBNeg, a, b => decide ((a - b).toInt < 0)

/-- `is_lower_or_equal` under a value of SEQ_FORM (40_seqarith.md R97). -/
def isLowerOrEqualIn : SeqForm → Word → Word → Bool
  | .bMinusAPos, a, b => isLowerOrEqual a b
  | .aMinusBNeg, a, b => decide ((a - b).toInt ≤ 0)

/-! ## Acknowledgement class -/

/-- The classes of 42_acktracker.md R144. -/
inductive AckClass where
  /-- In `(UNA, NXT]`. -/
  | new
  /-- Not NEW and at or below UNA. -/
  | dup
  /-- Neither. -/
  | future
deriving DecidableEq, Repr

/-- The class numbers TACK writes to RES0 (42_acktracker.md R145). -/
def ackClassWord : AckClass → Word
  | .new => 1
  | .dup => 2
  | .future => 3

/-- The class of acknowledgement number `a` against a slot, in the default form of the relations whatever SEQ_FORM
is (42_acktracker.md R144). -/
def ackClass (t : Slot) (a : Word) : AckClass :=
  if isLower t.una a && isLowerOrEqual a t.nxt then .new
  else if isLowerOrEqual a t.una then .dup
  else .future

/-! ## Flag combinations -/

/-- `FLAGREJ[c]` (10_state.md R31). -/
def flagRejected (s : State) (c : BitVec 6) : Bool :=
  if c.toNat < 32 then s.flagRej0.getLsbD c.toNat else s.flagRej1.getLsbD (c.toNat - 32)

end Sys2Proof.Machine
end

