-- ==== Sys2Proof/Machine/Abt.lean ====
section
/-! DEFINITION. The ABT unit's commands (42_acktracker.md). Every check precedes the first update, so an error
changes STATUS only (60_exceptions.md R179). -/

namespace Sys2Proof.Machine

/-- TINIT (42_acktracker.md R138). -/
def execTinit (n : Nat) (s : State) : Result :=
  let opc := (Instr.tinit n).opc
  .next <|
    if s.cfg.nTrk ≤ n then raiseErr .index opc s
    else if (s.slot n).active = true then raiseErr .state opc s
    else if s.cfg.capMax < s.opb.toNat then raiseErr .arg opc s
    else
      finishSlot opc n
        { active := true, cap := s.opb, used := 0, send := 0, curr := 0,
          una := s.opa, nxt := s.opa, start := 0, head := 0 }
        s.opb 0 s

/-- TREL (42_acktracker.md R140). -/
def execTrel (n : Nat) (s : State) : Result :=
  let opc := (Instr.trel n).opc
  .next <| withActiveSlot opc n s fun t => finishSlot opc n Slot.free t.used t.send s

/-- TQUEUE (42_acktracker.md R141). -/
def execTqueue (n : Nat) (s : State) : Result :=
  let opc := (Instr.tqueue n).opc
  .next <| withActiveSlot opc n s fun t =>
    let acc := minWord s.opa (t.cap - t.used)
    let t' := { t with used := t.used + acc }
    finishSlot opc n t' acc t'.avail s

/-- TMARK (42_acktracker.md R142). -/
def execTmark (n : Nat) (s : State) : Result :=
  let opc := (Instr.tmark n).opc
  .next <| withActiveSlot opc n s fun t =>
    if s.opa > t.used - t.send then raiseErr .precond opc s
    else
      let t' := { t with send := t.send + s.opa, curr := t.curr + s.opa, nxt := t.nxt + s.opa }
      finishSlot opc n t' t'.nxt (t'.used - t'.send) s

/-- TFREE (42_acktracker.md R143). -/
def execTfree (n : Nat) (s : State) : Result :=
  let opc := (Instr.tfree n).opc
  .next <| withActiveSlot opc n s fun t =>
    if s.opa > t.used then raiseErr .precond opc s
    else
      let t' := freeFront s.opa t
      finishSlot opc n t' s.opa t'.avail s

/-- TACK (42_acktracker.md R145). -/
def execTack (n : Nat) (s : State) : Result :=
  let opc := (Instr.tack n).opc
  .next <| withActiveSlot opc n s fun t =>
    match ackClass t s.opa with
    | .new =>
      let d := s.opa - t.una
      finishSlot opc n (freeFront d t) (ackClassWord .new) d s
    | .dup => finish opc (ackClassWord .dup) 0 s
    | .future => finish opc (ackClassWord .future) 0 s

/-- TRTX (42_acktracker.md R149). -/
def execTrtx (n : Nat) (s : State) : Result :=
  let opc := (Instr.trtx n).opc
  .next <| withActiveSlot opc n s fun t => finishSlot opc n { t with curr := 0 } t.send t.una s

/-- TRMARK (42_acktracker.md R150). -/
def execTrmark (n : Nat) (s : State) : Result :=
  let opc := (Instr.trmark n).opc
  .next <| withActiveSlot opc n s fun t =>
    if s.opa > t.send - t.curr then raiseErr .precond opc s
    else
      let t' := { t with curr := t.curr + s.opa }
      finishSlot opc n t' t'.curr (t'.send - t'.curr) s

end Sys2Proof.Machine
end

