-- ==== Sys2Proof/Machine/Control.lean ====
section
/-! DEFINITION. The control command (43_control.md). -/

namespace Sys2Proof.Machine

/-- NOP (43_control.md R170): STATUS only; RES0 and RES1 are unchanged. -/
def execNop (s : State) : Result := .next (setStatus 0x00 Instr.nop.opc s)

end Sys2Proof.Machine
end

