-- ==== Sys2Proof/Machine/Seq.lean ====
section
/-! DEFINITION. The SEQ unit's commands (40_seqarith.md). -/

namespace Sys2Proof.Machine

/-- SLT (40_seqarith.md R93), under the configured SEQ_FORM (R97). -/
def execSlt (s : State) : Result :=
  .next (finish Instr.slt.opc (b2w (isLowerIn s.cfg.seqForm s.opa s.opb)) 0 s)

/-- SLE (40_seqarith.md R94), under the configured SEQ_FORM (R97). -/
def execSle (s : State) : Result :=
  .next (finish Instr.sle.opc (b2w (isLowerOrEqualIn s.cfg.seqForm s.opa s.opb)) 0 s)

/-- SDIST (40_seqarith.md R95). -/
def execSdist (s : State) : Result :=
  .next (finish Instr.sdist.opc (distance s.opa s.opb) 0 s)

end Sys2Proof.Machine
end

