-- ==== Sys2Proof/Machine/Sval.lean ====
section
/-! DEFINITION. The SVAL unit's commands (41_validator.md). -/

namespace Sys2Proof.Machine

/-- The verdicts of 41_validator.md R101. -/
inductive Verdict where
  /-- All checks passed. -/
  | accept
  /-- Local address not ONLINE or CLOSING. -/
  | addrState
  /-- Destination not unicast. -/
  | dstType
  /-- VLEN below 20. -/
  | short
  /-- Data offset below 5 words, or beyond VLEN. -/
  | doff
  /-- Checksum does not verify. -/
  | csum
  /-- Flag combination rejected by FLAGREJ. -/
  | flags
  /-- Option area malformed. -/
  | optMal
  /-- Option kind not recognised and not whitelisted. -/
  | optForb
deriving DecidableEq, Repr

/-- The verdict codes of 41_validator.md R101. -/
def verdictWord : Verdict → Word
  | .accept => 0
  | .addrState => 1
  | .dstType => 2
  | .short => 3
  | .doff => 4
  | .csum => 5
  | .flags => 6
  | .optMal => 7
  | .optForb => 8

/-- Check 2 and check 3, which VSEG and VOPT share (41_validator.md R108, R109, R120): the verdict of the first that
fails. Byte 12 is read only when `L ≥ 20` (R104). -/
def lengthChecks (s : State) : Option Verdict :=
  if s.vlen.toNat < 20 then some .short
  else if (segDoff s).toNat < 5 ∨ s.vlen.toNat < headerLength s then some .doff
  else none

/-- The checks 0 to 5 of VSEG, in order, stopping at the first that fails (41_validator.md R100, R106 to R113). -/
def vsegVerdict (s : State) : Verdict :=
  if s.vctrl.astate ≠ 2 ∧ s.vctrl.astate ≠ 4 then .addrState
  else if s.vctrl.dtype ≠ 0 then .dstType
  else
    match lengthChecks s with
    | some v => v
    | none =>
      if s.vctrl.csumok = 0 ∧ csumOk (checksummed s) = false then .csum
      else if flagRejected s (segFlags s) = true then .flags
      else .accept

/-- The accept summary `{(L − 4·doff)[15:0], 0000b, doff, 00b, flags}` (41_validator.md R116). -/
def vsegSummary (s : State) : Word :=
  BitVec.ofNat 16 (s.vlen.toNat - headerLength s) ++ 0#4 ++ segDoff s ++ 0#2 ++ segFlags s

/-- VSEG (41_validator.md R117). -/
def execVseg (s : State) : Result :=
  .next <|
    if s.cfg.segMax < s.vlen.toNat then raiseErr .arg Instr.vseg.opc s
    else
      let v := vsegVerdict s
      finish Instr.vseg.opc (verdictWord v) (if v = .accept then vsegSummary s else 0) s

/-- The MSS report `{15 zero bits, MSSPRES, MSS}` (41_validator.md R125, R126). -/
def mssReport : Option (BitVec 16) → Word
  | none => 0
  | some mss => 0#15 ++ 1#1 ++ mss

/-- The option scan (41_validator.md R125) from index `i`, at most `fuel` times round, with the MSS found so far:
the verdict and RES1. A round adds at least 1 to `i`, so `stop - i` rounds reach `stop` (log 10). -/
def optScan (s : State) (f stop : Nat) : Nat → Nat → Option (BitVec 16) → Verdict × Word
  | 0, _, mss => (.accept, mssReport mss)
  | fuel + 1, i, mss =>
    if stop ≤ i then (.accept, mssReport mss)
    else
      let k := segRead s i
      if k = 0 then (.accept, mssReport mss)
      else if k = 1 then optScan s f stop fuel (i + 1) mss
      else if k ≠ 2 ∧ whitelisted s f k = false then (.optForb, 0)
      else if stop ≤ i + 1 then (.optMal, 0)
      else
        let len := (segRead s (i + 1)).toNat
        if len < 2 ∨ stop < i + len then (.optMal, 0)
        else if k = 2 then
          if len ≠ 4 then (.optMal, 0)
          else
            optScan s f stop fuel (i + len) (some (mss.getD (segRead s (i + 2) ++ segRead s (i + 3))))
        else optScan s f stop fuel (i + len) mss

/-- The verdict and RES1 of VOPT against whitelist `f` (41_validator.md R120, R125). -/
def voptVerdict (s : State) (f : Nat) : Verdict × Word :=
  match lengthChecks s with
  | some v => (v, 0)
  | none => optScan s f (headerLength s) (headerLength s - 20) 20 none

/-- VOPT (41_validator.md R126). -/
def execVopt (f : Nat) (s : State) : Result :=
  let opc := (Instr.vopt f).opc
  .next <|
    if s.cfg.nFilt ≤ f then raiseErr .index opc s
    else if s.cfg.segMax < s.vlen.toNat then raiseErr .arg opc s
    else
      let r := voptVerdict s f
      finish opc (verdictWord r.1) r.2 s

end Sys2Proof.Machine
end

