-- ==== Sys2Proof/Machine/Dispatch.lean ====
section
/-! DEFINITION. One arm per command. -/

namespace Sys2Proof.Machine

def exec (i : Instr) (s : State) : Host.Outcome State Fault Refusal :=
  match i with
  | .nop => Sys2Proof.Machine.execNop s
  | .slt => Sys2Proof.Machine.execSlt s
  | .sle => Sys2Proof.Machine.execSle s
  | .sdist => Sys2Proof.Machine.execSdist s
  | .tinit idx => Sys2Proof.Machine.execTinit idx s
  | .trel idx => Sys2Proof.Machine.execTrel idx s
  | .tqueue idx => Sys2Proof.Machine.execTqueue idx s
  | .tmark idx => Sys2Proof.Machine.execTmark idx s
  | .tfree idx => Sys2Proof.Machine.execTfree idx s
  | .tack idx => Sys2Proof.Machine.execTack idx s
  | .trtx idx => Sys2Proof.Machine.execTrtx idx s
  | .trmark idx => Sys2Proof.Machine.execTrmark idx s
  | .vseg => Sys2Proof.Machine.execVseg s
  | .vopt idx => Sys2Proof.Machine.execVopt idx s

end Sys2Proof.Machine
end

