-- ==== Sys2Proof/Machine/Command.lean ====
section
/-! DEFINITION. Performing one event of the host: a bus access, which may be a command, or a change of the reset
input. -/

namespace Sys2Proof.Machine

/-- A host write of `w` to CMD (10_state.md R27): the command it encodes, whole (20_memory.md R62), or ERR_OPCODE
with LASTOPC = w[7:0] for an illegal word (30_encoding.md R77). -/
def runCommand (w : Word) (s : State) : Result :=
  match decode w with
  | .command i => exec i s
  | .illegal _ => .next (raiseErr .opcode (opcField w) s)

/-- A host write of word `v` at offset `a` (20_memory.md R61). -/
def performWrite (a : Offset) (v : Word) (s : State) : Result :=
  if locate a = .cmd then runCommand v s else .next (writeLocation v s (locate a))

/-- A host read at offset `a`: no effect on the block (20_memory.md R61); the value goes to the host. -/
def performRead (a : Offset) (s : State) : State := { s with reads := s.reads ++ [busRead a s] }

/-- Releasing reset puts every element to its reset value (70_reset_and_hazards.md R195, R196) and draws SEGMEM anew
(10_state.md R37); the parameters stay (R198), and so does what lies outside the block. -/
def releaseReset (s : State) : State :=
  { State.resetFor s.cfg with resetCount := s.resetCount + 1, bus := s.bus, reads := s.reads }

/-- A change of the reset input (70_reset_and_hazards.md R195). Driving it to the level it has changes nothing
(DESIGN CHOICE, log 5). -/
def driveReset (asserted : Bool) (s : State) : State :=
  if asserted then { s with inReset := true }
  else if s.inReset then releaseReset s
  else s

/-- Perform one host event. While reset is asserted, an access is refused (70_reset_and_hazards.md R195). -/
def perform (e : BusEvent) (s : State) : Result :=
  match e with
  | .resetInput asserted => .next (driveReset asserted s)
  | .write a v => if s.inReset then .refused .accessDuringReset else performWrite a v s
  | .read a => if s.inReset then .refused .accessDuringReset else .next (performRead a s)

/-- The offset of CMD (20_memory.md R52). -/
def cmdOffset : Offset := 0x00010

/-- The event by which the host issues the command whose bits are `w`, taken to `nbits` bits. -/
def fetchEvent (nbits w : Nat) : BusEvent := .write cmdOffset (BitVec.ofNat 32 (w % 2 ^ nbits))

end Sys2Proof.Machine
end

