-- ==== Sys2Proof/Machine/Step.lean ====
section
/-! DEFINITION. One step: one host event (00_scope.md R19). -/

namespace Sys2Proof.Machine

/-- Perform the host's next event. With none pending nothing changes: the block never steps on its own
(00_scope.md R19, 60_exceptions.md R186; log 6). -/
def step (s : State) : Host.Outcome State Fault Refusal :=
  match s.bus with
  | [] => .next s
  | e :: rest => perform e { s with bus := rest }

/-- `s` with the host's next event a CMD write of the command word, and reset released, so that the next step runs
it (log 1, log 18). -/
def State.withFetchWord (s : State) (nbits w : Nat) : State :=
  { s with inReset := false, bus := fetchEvent nbits w :: s.bus }

end Sys2Proof.Machine
end

