-- ==== Sys2Proof/Machine/HostAsm.lean ====
section
/-! DEFINITION. The host assembly of 30_encoding.md R79 to R81: the expansion of a command mnemonic into bus accesses,
and a host that runs a program's lines against the block (70_reset_and_hazards.md R210, R211). The block never sees
labels, variables or branches. Lines are given as terms; their text form is not parsed (log 17). -/

namespace Sys2Proof.Machine

/-- The offset a named register or window word has (20_memory.md R52 to R56, 30_encoding.md R79). -/
def offsetOf : Location → Offset
  | .id => 0x00000
  | .cfg0 => 0x00004
  | .cfg1 => 0x00008
  | .status => 0x0000C
  | .cmd => 0x00010
  | .opa => 0x00014
  | .opb => 0x00018
  | .res0 => 0x0001C
  | .res1 => 0x00020
  | .vlen => 0x00024
  | .vctrl => 0x00028
  | .srcAddr j => BitVec.ofNat 17 (0x00030 + 4 * j.val)
  | .dstAddr j => BitVec.ofNat 17 (0x00040 + 4 * j.val)
  | .flagRej0 => 0x00050
  | .flagRej1 => 0x00054
  | .wlWord f j => BitVec.ofNat 17 (0x02000 + 32 * f + 4 * j.val)
  | .slotWord n j => BitVec.ofNat 17 (0x04000 + 64 * n + 4 * j.val)
  | .segWord k => BitVec.ofNat 17 (0x10000 + 4 * k)
  | .reserved => 0x0002C

/-- A value of the assembly: a literal below 2^32 or a host variable (30_encoding.md R79). -/
inductive HostValue where
  | lit (v : Word)
  | var (x : String)
deriving DecidableEq, Repr

/-- An operand of a mnemonic: a value to write to its register, or the register's name, which leaves it as it is
(30_encoding.md R80). -/
inductive HostArg where
  | value (v : HostValue)
  | register
deriving DecidableEq, Repr

/-- The comparisons of `IF`, on unsigned words (30_encoding.md R79). -/
inductive HostCompare where
  | eq
  | ne
  | lt
  | ge
deriving DecidableEq, Repr

/-- The lines of the host assembly (30_encoding.md R79). -/
inductive HostLine where
  /-- `WR <reg>, <value>`. -/
  | wr (r : Location) (v : HostValue)
  /-- `RD <reg> -> <var>`. -/
  | rd (r : Location) (x : String)
  /-- `<label>:`. -/
  | label (name : String)
  /-- `IF <var> <op> <value> GOTO <label>`. -/
  | ifGoto (x : String) (op : HostCompare) (v : HostValue) (target : String)
  /-- `GOTO <label>`. -/
  | goto (target : String)
  /-- `HALT`. -/
  | halt
  /-- A mnemonic with its operands in order (those for OPA, then for OPB), the variables of `-> r0, r1` and that of
  `=> st` (R80, R81). -/
  | command (i : Instr) (a b : HostArg) (results : List String) (status : Option String)
deriving DecidableEq, Repr

/-- The commands that read OPA (10_state.md R22, 30_encoding.md R74). -/
def readsOpa : Instr → Bool
  | .nop => false
  | .slt => true
  | .sle => true
  | .sdist => true
  | .tinit _ => true
  | .trel _ => false
  | .tqueue _ => true
  | .tmark _ => true
  | .tfree _ => true
  | .tack _ => true
  | .trtx _ => false
  | .trmark _ => true
  | .vseg => false
  | .vopt _ => false

/-- The commands that read OPB (10_state.md R22, 30_encoding.md R74). -/
def readsOpb : Instr → Bool
  | .nop => false
  | .slt => true
  | .sle => true
  | .sdist => true
  | .tinit _ => true
  | .trel _ => false
  | .tqueue _ => false
  | .tmark _ => false
  | .tfree _ => false
  | .tack _ => false
  | .trtx _ => false
  | .trmark _ => false
  | .vseg => false
  | .vopt _ => false

/-- The write an operand expands to, if the command reads the register and the operand is a value. -/
def operandLine (reads : Bool) (r : Location) : HostArg → List HostLine
  | .value v => if reads then [.wr r v] else []
  | .register => []

/-- The reads of `-> r0, r1` (30_encoding.md R81). -/
def resultLines : List String → List HostLine
  | [] => []
  | [x] => [.rd .res0 x]
  | x :: y :: _ => [.rd .res0 x, .rd .res1 y]

/-- The read of `=> st` (30_encoding.md R81). -/
def statusLine : Option String → List HostLine
  | none => []
  | some st => [.rd .status st]

/-- A line as primitive lines: a mnemonic is the writes of the operand registers it uses, OPA first, then one write
to CMD, then the reads of its shorthands (30_encoding.md R80, R81). -/
def expandLine : HostLine → List HostLine
  | .wr r v => [.wr r v]
  | .rd r x => [.rd r x]
  | .label name => [.label name]
  | .ifGoto x op v target => [.ifGoto x op v target]
  | .goto target => [.goto target]
  | .halt => [.halt]
  | .command i a b results status =>
    operandLine (readsOpa i) .opa a ++ operandLine (readsOpb i) .opb b ++ [.wr .cmd (.lit (encode i))] ++
      resultLines results ++ statusLine status

/-- A program as primitive lines. Labels are found by name, so positions need no adjusting. -/
def expandProgram (prog : List HostLine) : List HostLine := prog.flatMap expandLine

/-- A run in progress: the next primitive line, the host's variables, latest first, the block, and whether the run
has ended (70_reset_and_hazards.md R211). -/
structure HostRun where
  line : Nat
  vars : List (String × Word)
  block : State
  ended : Bool
deriving DecidableEq, Repr

/-- A value, if its variable has one. -/
def hostValue (vars : List (String × Word)) : HostValue → Option Word
  | .lit v => some v
  | .var x => vars.lookup x

/-- A comparison of unsigned words (30_encoding.md R79). -/
def hostCompare : HostCompare → Word → Word → Bool
  | .eq, a, b => a == b
  | .ne, a, b => a != b
  | .lt, a, b => decide (a < b)
  | .ge, a, b => decide (b ≤ a)

/-- The position of a label. -/
def labelLine (prog : List HostLine) (name : String) : Option Nat := prog.findIdx? (· == .label name)

/-- The block after a bus access, if the block performs it. -/
def accessed : Result → Option State
  | .next s => some s
  | .fault _ => none
  | .refused _ => none

/-- One primitive line of an expanded program. `none` where the assembly gives the line no meaning: a variable or
label that does not exist, or an access the block refuses (log 17). Past the last line the run has ended (R211). -/
def hostStep (prog : List HostLine) (h : HostRun) : Option HostRun :=
  if h.ended then some h
  else
    match prog[h.line]? with
    | none => some { h with ended := true }
    | some .halt => some { h with ended := true }
    | some (.label _) => some { h with line := h.line + 1 }
    | some (.goto target) => (labelLine prog target).map fun n => { h with line := n }
    | some (.ifGoto x op v target) => do
      let a ← h.vars.lookup x
      let b ← hostValue h.vars v
      if hostCompare op a b then
        let n ← labelLine prog target
        pure { h with line := n }
      else pure { h with line := h.line + 1 }
    | some (.wr r v) => do
      let w ← hostValue h.vars v
      let block ← accessed (perform (.write (offsetOf r) w) h.block)
      pure { h with line := h.line + 1, block := block }
    | some (.rd r x) => do
      let block ← accessed (perform (.read (offsetOf r)) h.block)
      pure { h with line := h.line + 1, block := block, vars := (x, busRead (offsetOf r) h.block) :: h.vars }
    | some (.command _ _ _ _ _) => none

/-- The start of a run from block state `s`, with no variable set (70_reset_and_hazards.md R210). -/
def HostRun.start (s : State) : HostRun := { line := 0, vars := [], block := s, ended := false }

/-- At most `fuel` lines of a program (70_reset_and_hazards.md R211). -/
def hostRun (prog : List HostLine) : Nat → HostRun → Option HostRun
  | 0, h => some h
  | fuel + 1, h => (hostStep prog h).bind (hostRun prog fuel)

end Sys2Proof.Machine
end

