-- ==== Sys2Proof/Safety.lean ====
section
/-! DEFINITION. What a good state and a good step are, in the terms claims use. -/

namespace Sys2Proof.Machine

/-- The slot invariants (I1) to (I6) of 10_state.md R36, for capacity bound `capMax`. -/
abbrev Slot.Inv (capMax : Nat) (t : Slot) : Prop :=
  (t.used ≤ t.cap ∧ t.cap.toNat ≤ capMax) ∧
  (t.curr ≤ t.send ∧ t.send ≤ t.used) ∧
  t.nxt = t.una + t.send ∧
  isLowerOrEqual t.una t.nxt = true ∧
  ((t.cap ≠ 0 → t.head < t.cap) ∧ (t.cap = 0 → t.head = 0)) ∧
  (t.active = false → t = Slot.free)

/-- What every state of a block has: legal parameters (00_scope.md R9), as many slots and whitelists as they say,
the slot invariants (10_state.md R36), a STATUS.CODE that is produced (R26), and SEGMEM in canonical form within
SEG_MAX bytes (R37). -/
abbrev State.Inv (s : State) : Prop :=
  s.cfg.Legal ∧ s.slots.length = s.cfg.nTrk ∧ s.wl.length = s.cfg.nFilt ∧
  (∀ t ∈ s.slots, t.Inv s.cfg.capMax) ∧ s.statusCode.toNat ≤ 5 ∧
  Memory.wf s.segmem ∧ Memory.within s.cfg.segMax s.segmem

/-- `s` after a command that ended in error `code`: STATUS differs and nothing else (60_exceptions.md R179). -/
def State.withStatus (s : State) (code lastOpc : Byte) : State :=
  { s with statusCode := code, statusLastOpc := lastOpc }

/-- Word `w` is the only legal command word whose OPC is `opc`: any other with that OPC ends with ERR_OPCODE and
changes STATUS only (30_encoding.md R77). -/
def OnlyLegalWord (opc : Byte) (w : Word) : Prop :=
  ∀ (v : Word) (s : State), opcField v = opc → v ≠ w → runCommand v s = .next (s.withStatus 0x01 opc)

end Sys2Proof.Machine
end

