-- ==== Sys2Proof/Certificates/Slice0/Obligations.lean ====
section
/-! DEFINITION. The statements for the provers. Each docstring names the rule it formalises. -/

open Sys2Proof Sys2Proof.Machine

/-! ## Encoding -/

/-- 30_encoding.md R82: the encoding examples. -/
def Obligations.EncodingExamplesDecode : Prop :=
  (encode .slt = 0x00000010 ∧ decode 0x00000010 = .command .slt) ∧
  (encode (.tack 3) = 0x00000325 ∧ decode 0x00000325 = .command (.tack 3)) ∧
  (encode (.tinit 255) = 0x0000FF20 ∧ decode 0x0000FF20 = .command (.tinit 255)) ∧
  (encode (.vopt 2) = 0x00000231 ∧ decode 0x00000231 = .command (.vopt 2)) ∧
  decode 0x00000110 = .illegal .indexNotZero ∧
  decode 0x00010025 = .illegal .reservedNotZero ∧
  decode 0x00000028 = .illegal .unassignedOpc

/-- 30_encoding.md section 3: decoding the word of any well-formed command gives the command back. -/
def Obligations.DecodeEncodeRoundTrip : Prop :=
  ∀ i : Instr, i.wellFormed = true → decode (encode i) = .command i

/-- 30_encoding.md section 3: a word that decodes to a command is that command's one word, and the command is well
formed. -/
def Obligations.DecodedWordIsItsEncoding : Prop :=
  ∀ (w : Word) (i : Instr), decode w = .command i → i.wellFormed = true ∧ encode i = w

/-- 30_encoding.md R75, its last sentences: no word matches two rows of the opcode map, and a word decodes to a
command exactly when it matches a row. -/
def Obligations.OpcodeRowsDisjoint : Prop :=
  ∀ w : Word,
    opcodeMap.Pairwise (fun r q => ¬(w &&& r.mask = r.pattern ∧ w &&& q.mask = q.pattern)) ∧
    ((∃ r ∈ opcodeMap, w &&& r.mask = r.pattern) ↔ ∃ i, decode w = .command i)

/-- 30_encoding.md R77: a CMD write of an illegal word ends with ERR_OPCODE and changes STATUS only; the reserved OPC
values are illegal; the only no-op is the word 0. What a CMD write does is `runCommand` of its word, legal or not. -/
def Obligations.IllegalWordsChangeStatusOnly : Prop :=
  (∀ (w : Word) (s : State), s.inReset = false → perform (.write 0x00010 w) s = runCommand w s) ∧
  (∀ (w : Word) (why : IllegalCause) (s : State), decode w = .illegal why →
    runCommand w s = .next { s with statusCode := 0x01, statusLastOpc := w.extractLsb' 0 8 } ∧
    (s.inReset = false →
      perform (.write 0x00010 w) s = .next { s with statusCode := 0x01, statusLastOpc := w.extractLsb' 0 8 })) ∧
  (∀ w : Word,
    (let o := (w.extractLsb' 0 8).toNat
     (0x01 ≤ o ∧ o ≤ 0x0F) ∨ (0x13 ≤ o ∧ o ≤ 0x1F) ∨ (0x28 ≤ o ∧ o ≤ 0x2F) ∨ (0x32 ≤ o ∧ o ≤ 0xFF)) →
    ∃ why, decode w = .illegal why) ∧
  (∀ w : Word, decode w = .command .nop ↔ w = 0)

/-! ## The step -/

/-- 00_scope.md R19, 20_memory.md R62: outside reset, a step whose event is a write of a command's word to CMD (offset
0x00010) is exec of the command, at the state without that event (the list of events is the model's own, log 1). -/
def Obligations.StepRunsDecodedCommand : Prop :=
  ∀ (s : State) (w : Word) (rest : List BusEvent) (i : Instr),
    s.inReset = false → s.bus = .write 0x00010 w :: rest → decode w = .command i →
    i.wellFormed = true ∧ step s = exec i { s with bus := rest }

/-- The model's placing of a command (log 1, log 18): the step after withFetchWord runs the encoded command. -/
def Obligations.FetchWordRunsNext : Prop :=
  ∀ (s : State) (i : Instr), i.wellFormed = true →
    step (s.withFetchWord 32 (encode i).toNat) = exec i { s with inReset := false }

/-- 60_exceptions.md R186, 00_scope.md R19: with no access pending a step changes nothing (that there is such a step
is the model's choice, log 6); with one pending, the step performs that one event (log 1). -/
def Obligations.StepPerformsOneEvent : Prop :=
  (∀ s : State, s.bus = [] → step s = .next s) ∧
  (∀ (s : State) (e : BusEvent) (rest : List BusEvent), s.bus = e :: rest →
    step s = perform e { s with bus := rest })

/-- 60_exceptions.md R175, R193 (in the parts that say every access completes): outside reset every step gives a
next state; the one stop of the machine is a host access while reset is asserted. -/
def Obligations.EveryAccessCompletes : Prop :=
  (∀ s : State, s.inReset = false → ∃ t, step s = .next t) ∧
  (∀ (s : State) (r : Refusal), step s = .refused r →
    r = .accessDuringReset ∧ s.inReset = true ∧
      ((∃ a rest, s.bus = .read a :: rest) ∨ (∃ a v rest, s.bus = .write a v :: rest))) ∧
  (∀ (i : Instr) (s : State), ∃ t, exec i s = .next t)

/-! ## NOP and SEQ -/

/-- 43_control.md R170: NOP writes STATUS only; any other word with OPC 0 is ERR_OPCODE. -/
def Obligations.NopOutcome : Prop :=
  decode 0x00000000 = .command .nop ∧ OnlyLegalWord 0x00 0x00000000 ∧
  ∀ s : State, exec .nop s = .next { s with statusCode := 0x00, statusLastOpc := 0x00 }

/-- 40_seqarith.md R93: SLT, in the default form of the relations; all else is unchanged. -/
def Obligations.SltOutcome : Prop :=
  decode 0x00000010 = .command .slt ∧ OnlyLegalWord 0x10 0x00000010 ∧
  ∀ s : State, s.cfg.seqForm = .bMinusAPos →
    exec .slt s = .next { s with
      statusCode := 0x00, statusLastOpc := 0x10
      res0 := if (s.opb - s.opa).toInt > 0 then 1 else 0, res1 := 0 }

/-- 40_seqarith.md R94: SLE, in the default form of the relations; all else is unchanged. -/
def Obligations.SleOutcome : Prop :=
  decode 0x00000011 = .command .sle ∧ OnlyLegalWord 0x11 0x00000011 ∧
  ∀ s : State, s.cfg.seqForm = .bMinusAPos →
    exec .sle s = .next { s with
      statusCode := 0x00, statusLastOpc := 0x11
      res0 := if (s.opb - s.opa).toInt ≥ 0 then 1 else 0, res1 := 0 }

/-- 40_seqarith.md R95: SDIST; all else is unchanged. -/
def Obligations.SdistOutcome : Prop :=
  decode 0x00000012 = .command .sdist ∧ OnlyLegalWord 0x12 0x00000012 ∧
  ∀ s : State,
    exec .sdist s = .next { s with
      statusCode := 0x00, statusLastOpc := 0x12, res0 := s.opb - s.opa, res1 := 0 }

/-- 40_seqarith.md R96: distance and its sign. -/
def Obligations.DistanceSign : Prop :=
  ∀ a b : Word,
    distance a b = b - a ∧ -(2 ^ 31) ≤ (distance a b).toInt ∧ (distance a b).toInt ≤ 2 ^ 31 - 1 ∧
    (0 < (distance a b).toInt ↔ isLower a b = true) ∧ ((distance a b).toInt = 0 ↔ a = b) ∧
    ((distance a b).toInt < 0 ↔ isLower a b = false ∧ a ≠ b)

/-- 40_seqarith.md R97: at the antipode the default form holds in neither order and the other form in both; elsewhere
the forms agree. SLT and SLE follow the configured form, and no other command depends on it. -/
def Obligations.AntipodeOfBothForms : Prop :=
  (∀ a b : Word, b - a = 0x80000000 →
    isLowerIn .bMinusAPos a b = false ∧ isLowerIn .bMinusAPos b a = false ∧
    isLowerOrEqualIn .bMinusAPos a b = false ∧ isLowerOrEqualIn .bMinusAPos b a = false ∧
    distance a b = 0x80000000 ∧ distance b a = 0x80000000 ∧
    isLowerIn .aMinusBNeg a b = true ∧ isLowerIn .aMinusBNeg b a = true) ∧
  (∀ a b : Word,
    (isLowerIn .aMinusBNeg a b = true ↔ (a - b).toInt < 0) ∧
    (isLowerOrEqualIn .aMinusBNeg a b = true ↔ (a - b).toInt ≤ 0) ∧
    (b - a ≠ 0x80000000 →
      isLowerIn .aMinusBNeg a b = isLowerIn .bMinusAPos a b ∧
      isLowerOrEqualIn .aMinusBNeg a b = isLowerOrEqualIn .bMinusAPos a b)) ∧
  (∀ s : State,
    exec .slt s = .next { s with
      statusCode := 0x00, statusLastOpc := 0x10
      res0 := if isLowerIn s.cfg.seqForm s.opa s.opb then 1 else 0, res1 := 0 } ∧
    exec .sle s = .next { s with
      statusCode := 0x00, statusLastOpc := 0x11
      res0 := if isLowerOrEqualIn s.cfg.seqForm s.opa s.opb then 1 else 0, res1 := 0 }) ∧
  (∀ (i : Instr) (s t : State) (f : SeqForm), i ≠ .slt → i ≠ .sle → exec i s = .next t →
    exec i { s with cfg := { s.cfg with seqForm := f } } =
      .next { t with cfg := { t.cfg with seqForm := f } })

/-- 40_seqarith.md R98: the laws L1 to L8 of the sequence relations. -/
def Obligations.SequenceOrderLaws : Prop :=
  (∀ a : Word, isLower a (a + 1) = true) ∧
  (∀ a b : Word, isLower a b = (isLowerOrEqual a b && a != b)) ∧
  (∀ a b : Word, ¬(isLower a b = true ∧ isLower b a = true)) ∧
  (∀ a b : Word,
    ((isLower a b = true ∧ a ≠ b ∧ isLower b a = false) ∨
      (isLower a b = false ∧ a = b ∧ isLower b a = false) ∨
      (isLower a b = false ∧ a ≠ b ∧ isLower b a = true)) ↔ b - a ≠ 0x80000000) ∧
  (∀ a b k : Word,
    isLower (a + k) (b + k) = isLower a b ∧ isLowerOrEqual (a + k) (b + k) = isLowerOrEqual a b ∧
    distance (a + k) (b + k) = distance a b) ∧
  (∀ a b : Word, isLower a b = true ↔ 0 < (distance a b).toNat ∧ (distance a b).toNat < 2 ^ 31) ∧
  (isLower 0 0x60000000 = true ∧ isLower 0x60000000 0xC0000000 = true ∧ isLower 0 0xC0000000 = false) ∧
  (∀ o a b c : Word, (a - o).toNat < 2 ^ 31 → (b - o).toNat < 2 ^ 31 → (c - o).toNat < 2 ^ 31 →
    isLower a b = true → isLower b c = true → isLower a c = true) ∧
  (∀ a b c : Word, distance a b + distance b c = distance a c)

/-! ## ABT -/

/-- 42_acktracker.md R131, R132: an ABT command checks its index first, then ACTIVE, before any operand. -/
def Obligations.TrackerChecksIndexThenState : Prop :=
  ∀ (i : Instr) (s : State),
    (0x20 ≤ i.opc.toNat ∧ i.opc.toNat ≤ 0x27) →
    (s.cfg.nTrk ≤ i.index → exec i s = .next { s with statusCode := 0x02, statusLastOpc := i.opc }) ∧
    (∀ t : Slot, i.index < s.cfg.nTrk → s.slots[i.index]? = some t →
      t.active = (if i.opc = 0x20 then true else false) →
      exec i s = .next { s with statusCode := 0x03, statusLastOpc := i.opc })

/-- 42_acktracker.md R138: TINIT, its encoding and its four outcomes; all else is unchanged. -/
def Obligations.TinitOutcome : Prop :=
  (∀ n < 256, decode (BitVec.ofNat 32 (0x00000020 + 256 * n)) = .command (.tinit n)) ∧
  ∀ (n : Nat) (s : State),
    (s.cfg.nTrk ≤ n → exec (.tinit n) s = .next { s with statusCode := 0x02, statusLastOpc := 0x20 }) ∧
    ∀ t : Slot, n < s.cfg.nTrk → s.slots[n]? = some t →
      (t.active = true → exec (.tinit n) s = .next { s with statusCode := 0x03, statusLastOpc := 0x20 }) ∧
      (t.active = false → s.cfg.capMax < s.opb.toNat →
        exec (.tinit n) s = .next { s with statusCode := 0x04, statusLastOpc := 0x20 }) ∧
      (t.active = false → s.opb.toNat ≤ s.cfg.capMax →
        exec (.tinit n) s = .next { s with
          slots := s.slots.set n
            { active := true, cap := s.opb, used := 0, send := 0, curr := 0,
              una := s.opa, nxt := s.opa, start := 0, head := 0 }
          statusCode := 0x00, statusLastOpc := 0x20, res0 := s.opb, res1 := 0 })

/-- 42_acktracker.md R140: TREL, its encoding and its outcomes; all else is unchanged. -/
def Obligations.TrelOutcome : Prop :=
  (∀ n < 256, decode (BitVec.ofNat 32 (0x00000021 + 256 * n)) = .command (.trel n)) ∧
  ∀ (n : Nat) (s : State),
    (s.cfg.nTrk ≤ n → exec (.trel n) s = .next { s with statusCode := 0x02, statusLastOpc := 0x21 }) ∧
    ∀ t : Slot, n < s.cfg.nTrk → s.slots[n]? = some t →
      (t.active = false → exec (.trel n) s = .next { s with statusCode := 0x03, statusLastOpc := 0x21 }) ∧
      (t.active = true →
        exec (.trel n) s = .next { s with
          slots := s.slots.set n
            { active := false, cap := 0, used := 0, send := 0, curr := 0,
              una := 0, nxt := 0, start := 0, head := 0 }
          statusCode := 0x00, statusLastOpc := 0x21, res0 := t.used, res1 := t.send })

/-- 42_acktracker.md R141: TQUEUE, its encoding and its outcomes; all else is unchanged. -/
def Obligations.TqueueOutcome : Prop :=
  (∀ n < 256, decode (BitVec.ofNat 32 (0x00000022 + 256 * n)) = .command (.tqueue n)) ∧
  ∀ (n : Nat) (s : State),
    (s.cfg.nTrk ≤ n → exec (.tqueue n) s = .next { s with statusCode := 0x02, statusLastOpc := 0x22 }) ∧
    ∀ t : Slot, n < s.cfg.nTrk → s.slots[n]? = some t →
      (t.active = false → exec (.tqueue n) s = .next { s with statusCode := 0x03, statusLastOpc := 0x22 }) ∧
      (t.active = true →
        ∀ acc : Word, acc.toNat = min s.opa.toNat (t.cap - t.used).toNat →
          exec (.tqueue n) s = .next { s with
            slots := s.slots.set n { t with used := t.used + acc }
            statusCode := 0x00, statusLastOpc := 0x22, res0 := acc, res1 := t.cap - (t.used + acc) })

/-- 42_acktracker.md R142: TMARK, its encoding and its outcomes; all else is unchanged. -/
def Obligations.TmarkOutcome : Prop :=
  (∀ n < 256, decode (BitVec.ofNat 32 (0x00000023 + 256 * n)) = .command (.tmark n)) ∧
  ∀ (n : Nat) (s : State),
    (s.cfg.nTrk ≤ n → exec (.tmark n) s = .next { s with statusCode := 0x02, statusLastOpc := 0x23 }) ∧
    ∀ t : Slot, n < s.cfg.nTrk → s.slots[n]? = some t →
      (t.active = false → exec (.tmark n) s = .next { s with statusCode := 0x03, statusLastOpc := 0x23 }) ∧
      (t.active = true → (t.used - t.send).toNat < s.opa.toNat →
        exec (.tmark n) s = .next { s with statusCode := 0x05, statusLastOpc := 0x23 }) ∧
      (t.active = true → s.opa.toNat ≤ (t.used - t.send).toNat →
        exec (.tmark n) s = .next { s with
          slots := s.slots.set n
            { t with send := t.send + s.opa, curr := t.curr + s.opa, nxt := t.nxt + s.opa }
          statusCode := 0x00, statusLastOpc := 0x23
          res0 := t.nxt + s.opa, res1 := t.used - (t.send + s.opa) })

/-- 42_acktracker.md R137: every field after free_front, and when NXT moves. -/
def Obligations.FreeFrontUpdatesFields : Prop :=
  ∀ (n ds dc : Word) (t : Slot), n.toNat ≤ t.used.toNat →
    ds.toNat = min n.toNat t.send.toNat → dc.toNat = min n.toNat t.curr.toNat →
    freeFront n t =
      { active := t.active, cap := t.cap, used := t.used - n, send := t.send - ds, curr := t.curr - dc,
        una := t.una + n, nxt := t.una + n + (t.send - ds), start := t.start + n,
        head := if t.cap = 0 then 0 else (t.head + n) % t.cap } ∧
    (n.toNat ≤ t.send.toNat → t.nxt = t.una + t.send → (freeFront n t).nxt = t.nxt) ∧
    (t.send.toNat < n.toNat → (freeFront n t).nxt = (freeFront n t).una)

/-- 42_acktracker.md R143: TFREE, its encoding and its outcomes, with free_front of R137; all else is unchanged. -/
def Obligations.TfreeOutcome : Prop :=
  (∀ n < 256, decode (BitVec.ofNat 32 (0x00000024 + 256 * n)) = .command (.tfree n)) ∧
  ∀ (n : Nat) (s : State),
    (s.cfg.nTrk ≤ n → exec (.tfree n) s = .next { s with statusCode := 0x02, statusLastOpc := 0x24 }) ∧
    ∀ t : Slot, n < s.cfg.nTrk → s.slots[n]? = some t →
      (t.active = false → exec (.tfree n) s = .next { s with statusCode := 0x03, statusLastOpc := 0x24 }) ∧
      (t.active = true → t.used.toNat < s.opa.toNat →
        exec (.tfree n) s = .next { s with statusCode := 0x05, statusLastOpc := 0x24 }) ∧
      (t.active = true → s.opa.toNat ≤ t.used.toNat →
        exec (.tfree n) s = .next { s with
          slots := s.slots.set n (freeFront s.opa t)
          statusCode := 0x00, statusLastOpc := 0x24
          res0 := s.opa, res1 := t.cap - (t.used - s.opa) })

/-- 42_acktracker.md R144: the classes, disjoint and covering, with the antipode of UNA FUTURE. -/
def Obligations.AcknowledgementClasses : Prop :=
  ∀ (t : Slot) (a : Word),
    (ackClass t a = .new ↔ isLower t.una a = true ∧ isLowerOrEqual a t.nxt = true) ∧
    (ackClass t a = .dup ↔
      ¬(isLower t.una a = true ∧ isLowerOrEqual a t.nxt = true) ∧ isLowerOrEqual a t.una = true) ∧
    (ackClass t a = .future ↔
      ¬(isLower t.una a = true ∧ isLowerOrEqual a t.nxt = true) ∧ isLowerOrEqual a t.una = false) ∧
    (a - t.una = 0x80000000 → ackClass t a = .future)

/-- 42_acktracker.md R145: TACK, its encoding and its outcomes, with free_front of R137; all else is unchanged. -/
def Obligations.TackOutcome : Prop :=
  (∀ n < 256, decode (BitVec.ofNat 32 (0x00000025 + 256 * n)) = .command (.tack n)) ∧
  ∀ (n : Nat) (s : State),
    (s.cfg.nTrk ≤ n → exec (.tack n) s = .next { s with statusCode := 0x02, statusLastOpc := 0x25 }) ∧
    ∀ t : Slot, n < s.cfg.nTrk → s.slots[n]? = some t →
      (t.active = false → exec (.tack n) s = .next { s with statusCode := 0x03, statusLastOpc := 0x25 }) ∧
      (t.active = true → isLower t.una s.opa = true → isLowerOrEqual s.opa t.nxt = true →
        exec (.tack n) s = .next { s with
          slots := s.slots.set n (freeFront (s.opa - t.una) t)
          statusCode := 0x00, statusLastOpc := 0x25, res0 := 1, res1 := s.opa - t.una }) ∧
      (t.active = true → ¬(isLower t.una s.opa = true ∧ isLowerOrEqual s.opa t.nxt = true) →
        isLowerOrEqual s.opa t.una = true →
        exec (.tack n) s = .next { s with
          statusCode := 0x00, statusLastOpc := 0x25, res0 := 2, res1 := 0 }) ∧
      (t.active = true → ¬(isLower t.una s.opa = true ∧ isLowerOrEqual s.opa t.nxt = true) →
        isLowerOrEqual s.opa t.una = false →
        exec (.tack n) s = .next { s with
          statusCode := 0x00, statusLastOpc := 0x25, res0 := 3, res1 := 0 })

/-- 42_acktracker.md R146: a NEW acknowledgement frees between 1 and SEND bytes, makes UNA the acknowledgement number
and keeps NXT; replaying it frees nothing; UNA moves forward. -/
def Obligations.NewAckFreesWithinSendOnce : Prop :=
  ∀ (n : Nat) (s : State) (t : Slot),
    s.cfg.Legal → n < s.cfg.nTrk → s.slots[n]? = some t → t.active = true → t.Inv s.cfg.capMax →
    isLower t.una s.opa = true → isLowerOrEqual s.opa t.nxt = true →
    (1 ≤ (s.opa - t.una).toNat ∧ (s.opa - t.una).toNat ≤ t.send.toNat ∧
      (distance t.una s.opa).toNat + (distance s.opa t.nxt).toNat = t.send.toNat) ∧
    ∃ (t' : Slot) (s' : State), exec (.tack n) s = .next s' ∧ s'.slots = s.slots.set n t' ∧
      t'.una = s.opa ∧ t'.nxt = t.nxt ∧ isLower t.una t'.una = true ∧
      exec (.tack n) s' = .next { s' with res0 := 2, res1 := 0 }

/-- 42_acktracker.md R149: TRTX, its encoding and its outcomes; all else is unchanged. -/
def Obligations.TrtxOutcome : Prop :=
  (∀ n < 256, decode (BitVec.ofNat 32 (0x00000026 + 256 * n)) = .command (.trtx n)) ∧
  ∀ (n : Nat) (s : State),
    (s.cfg.nTrk ≤ n → exec (.trtx n) s = .next { s with statusCode := 0x02, statusLastOpc := 0x26 }) ∧
    ∀ t : Slot, n < s.cfg.nTrk → s.slots[n]? = some t →
      (t.active = false → exec (.trtx n) s = .next { s with statusCode := 0x03, statusLastOpc := 0x26 }) ∧
      (t.active = true →
        exec (.trtx n) s = .next { s with
          slots := s.slots.set n { t with curr := 0 }
          statusCode := 0x00, statusLastOpc := 0x26, res0 := t.send, res1 := t.una })

/-- 42_acktracker.md R150: TRMARK, its encoding and its outcomes; all else is unchanged. -/
def Obligations.TrmarkOutcome : Prop :=
  (∀ n < 256, decode (BitVec.ofNat 32 (0x00000027 + 256 * n)) = .command (.trmark n)) ∧
  ∀ (n : Nat) (s : State),
    (s.cfg.nTrk ≤ n → exec (.trmark n) s = .next { s with statusCode := 0x02, statusLastOpc := 0x27 }) ∧
    ∀ t : Slot, n < s.cfg.nTrk → s.slots[n]? = some t →
      (t.active = false → exec (.trmark n) s = .next { s with statusCode := 0x03, statusLastOpc := 0x27 }) ∧
      (t.active = true → (t.send - t.curr).toNat < s.opa.toNat →
        exec (.trmark n) s = .next { s with statusCode := 0x05, statusLastOpc := 0x27 }) ∧
      (t.active = true → s.opa.toNat ≤ (t.send - t.curr).toNat →
        exec (.trmark n) s = .next { s with
          slots := s.slots.set n { t with curr := t.curr + s.opa }
          statusCode := 0x00, statusLastOpc := 0x27
          res0 := t.curr + s.opa, res1 := t.send - (t.curr + s.opa) })

/-- 70_reset_and_hazards.md R200: with every slot as reset leaves it, TINIT can succeed and every other ABT command
ends with ERR_STATE or ERR_INDEX. -/
def Obligations.OnlyTinitSucceedsAfterReset : Prop :=
  ∀ s : State, s.cfg.Legal → s.slots = (State.resetFor s.cfg).slots →
    (∀ i : Instr, 0x21 ≤ i.opc.toNat → i.opc.toNat ≤ 0x27 →
      exec i s = .next { s with
        statusCode := if s.cfg.nTrk ≤ i.index then 0x02 else 0x03, statusLastOpc := i.opc }) ∧
    (∀ n : Nat, n < s.cfg.nTrk → s.opb.toNat ≤ s.cfg.capMax →
      ∃ t, exec (.tinit n) s = .next t ∧ t.statusCode = 0x00 ∧ t.statusLastOpc = 0x20)

/-! ## SVAL -/

/-- 41_validator.md R110: the sum, its fold, and when the checksum verifies. -/
def Obligations.ChecksumVerifies : Prop :=
  (∀ (d : List Byte) (m : Nat), d.length = 2 * m →
    wordSum d =
      ((List.range m).map fun i => 256 * (d.getD (2 * i) 0).toNat + (d.getD (2 * i + 1) 0).toNat).sum) ∧
  (∀ n : Nat,
    foldSum n ≤ 0xFFFF ∧ (n ≤ 0xFFFF → foldSum n = n) ∧
    (0xFFFF < n → foldSum n = foldSum (n % 65536 + n / 65536))) ∧
  (∀ d : List Byte,
    (csumOk d = true ↔ foldSum (wordSum d) = 0xFFFF) ∧
    (csumOk d = true ↔ 0 < wordSum d ∧ wordSum d % 65535 = 0))

/-- 41_validator.md R111: the pseudo-headers, the segment and the pad. -/
def Obligations.ChecksummedStringLayout : Prop :=
  ∀ s : State,
    let word := fun v : Word => [v.extractLsb' 24 8, v.extractLsb' 16 8, v.extractLsb' 8 8, v.extractLsb' 0 8]
    let segment := (List.range s.vlen.toNat).map (segRead s)
    let pad := if s.vlen.toNat % 2 = 1 then [(0x00 : Byte)] else []
    (s.vctrl.af = 0 →
      checksummed s = word s.srcAddr[0] ++ word s.dstAddr[0] ++
        [0x00, 0x06, s.vlen.extractLsb' 8 8, s.vlen.extractLsb' 0 8] ++ segment ++ pad) ∧
    (s.vctrl.af = 1 →
      checksummed s =
        word s.srcAddr[0] ++ word s.srcAddr[1] ++ word s.srcAddr[2] ++ word s.srcAddr[3] ++
        word s.dstAddr[0] ++ word s.dstAddr[1] ++ word s.dstAddr[2] ++ word s.dstAddr[3] ++
        word s.vlen ++ [0x00, 0x00, 0x00, 0x06] ++ segment ++ pad) ∧
    (checksummed s).length % 2 = 0

/-- 41_validator.md R117: VSEG, its encoding, ERR_ARG, and the verdict of the first check that fails, in order; all
else is unchanged. -/
def Obligations.VsegOutcome : Prop :=
  decode 0x00000030 = .command .vseg ∧ OnlyLegalWord 0x30 0x00000030 ∧
  ∀ s : State,
    let len := s.vlen.toNat
    let doff : BitVec 4 := (segRead s 12).extractLsb' 4 4
    let flags : BitVec 6 := (segRead s 13).extractLsb' 0 6
    let ends := fun verdict summary : Word =>
      exec .vseg s = .next { s with
        statusCode := 0x00, statusLastOpc := 0x30, res0 := verdict, res1 := summary }
    (s.cfg.segMax < len → exec .vseg s = .next { s with statusCode := 0x04, statusLastOpc := 0x30 }) ∧
    (len ≤ s.cfg.segMax →
      (¬(s.vctrl.astate = 2 ∨ s.vctrl.astate = 4) → ends 1 0) ∧
      ((s.vctrl.astate = 2 ∨ s.vctrl.astate = 4) →
        (s.vctrl.dtype ≠ 0 → ends 2 0) ∧
        (s.vctrl.dtype = 0 →
          (len < 20 → ends 3 0) ∧
          (20 ≤ len →
            ((doff.toNat < 5 ∨ len < 4 * doff.toNat) → ends 4 0) ∧
            (5 ≤ doff.toNat → 4 * doff.toNat ≤ len →
              ((s.vctrl.csumok = 0 ∧ csumOk (checksummed s) = false) → ends 5 0) ∧
              ((s.vctrl.csumok = 1 ∨ csumOk (checksummed s) = true) →
                ((s.flagRej1 ++ s.flagRej0).getLsbD flags.toNat = true → ends 6 0) ∧
                ((s.flagRej1 ++ s.flagRej0).getLsbD flags.toNat = false →
                  ends 0 (BitVec.ofNat 16 (len - 4 * doff.toNat) ++ 0#4 ++ doff ++ 0#2 ++ flags))))))))

/-- 41_validator.md R125: the option scan is the loop of the rule, one round at a time (`stop` is its `end`), with its
answers as verdict numbers, and VOPT starts it at index 20 with no MSS and `end` = 4·doff. -/
def Obligations.OptionScanFollowsLoop : Prop :=
  (verdictWord .accept = 0 ∧ verdictWord .optMal = 7 ∧ verdictWord .optForb = 8) ∧
  (∀ (f : Nat) (s : State),
    let stop := 4 * ((segRead s 12).extractLsb' 4 4).toNat
    f < s.cfg.nFilt → s.vlen.toNat ≤ s.cfg.segMax → 20 ≤ stop → stop ≤ s.vlen.toNat →
    ∃ t, exec (.vopt f) s = .next t ∧
      t.res0 = verdictWord (optScan s f stop (stop - 20) 20 none).1 ∧
      t.res1 = (optScan s f stop (stop - 20) 20 none).2) ∧
  ∀ (s : State) (f stop i : Nat) (mss : Option (BitVec 16)),
    let scan := fun (i : Nat) (mss : Option (BitVec 16)) => optScan s f stop (stop - i) i mss
    let accept : Verdict × Word :=
      (.accept, match mss with
        | none => 0
        | some m => 0#15 ++ 1#1 ++ m)
    let k := segRead s i
    let len := (segRead s (i + 1)).toNat
    (stop ≤ i → scan i mss = accept) ∧
    (i < stop →
      scan i mss =
        if k = 0 then accept
        else if k = 1 then scan (i + 1) mss
        else if k ≠ 2 ∧ whitelisted s f k = false then (.optForb, 0)
        else if stop ≤ i + 1 then (.optMal, 0)
        else if len < 2 ∨ stop < i + len then (.optMal, 0)
        else if k = 2 then
          if len ≠ 4 then (.optMal, 0)
          else scan (i + len) (some (mss.getD (segRead s (i + 2) ++ segRead s (i + 3))))
        else scan (i + len) mss)

/-- 41_validator.md R126: VOPT, its encoding, its errors, its prechecks and the scan of R125 from index 20 to the end
of the header; all else is unchanged. -/
def Obligations.VoptOutcome : Prop :=
  (∀ f < 256, decode (BitVec.ofNat 32 (0x00000031 + 256 * f)) = .command (.vopt f)) ∧
  (∀ (w : Word) (s : State), w.extractLsb' 0 8 = 0x31 → w.extractLsb' 16 16 ≠ 0 →
    runCommand w s = .next (s.withStatus 0x01 0x31)) ∧
  ∀ (f : Nat) (s : State),
    let len := s.vlen.toNat
    let doff : BitVec 4 := (segRead s 12).extractLsb' 4 4
    let ends := fun verdict report : Word =>
      exec (.vopt f) s = .next { s with
        statusCode := 0x00, statusLastOpc := 0x31, res0 := verdict, res1 := report }
    (s.cfg.nFilt ≤ f → exec (.vopt f) s = .next { s with statusCode := 0x02, statusLastOpc := 0x31 }) ∧
    (f < s.cfg.nFilt →
      (s.cfg.segMax < len → exec (.vopt f) s = .next { s with statusCode := 0x04, statusLastOpc := 0x31 }) ∧
      (len ≤ s.cfg.segMax →
        (len < 20 → ends 3 0) ∧
        (20 ≤ len →
          ((doff.toNat < 5 ∨ len < 4 * doff.toNat) → ends 4 0) ∧
          (5 ≤ doff.toNat → 4 * doff.toNat ≤ len →
            let r := optScan s f (4 * doff.toNat) (4 * doff.toNat - 20) 20 none
            ends (verdictWord r.1) r.2 ∧
              (verdictWord r.1 = 0 ∨ ((verdictWord r.1 = 7 ∨ verdictWord r.1 = 8) ∧ r.2 = 0))))))

/-- 41_validator.md section 4 (recognised kinds): VOPT does not depend on the whitelist bits of kinds 0, 1 and 2. -/
def Obligations.VoptIgnoresKnownKindBits : Prop :=
  ∀ (f : Nat) (s t : State) (wl : List Whitelist),
    (∀ k : Byte, 3 ≤ k.toNat → whitelisted { s with wl := wl } f k = whitelisted s f k) →
    exec (.vopt f) s = .next t → exec (.vopt f) { s with wl := wl } = .next { t with wl := wl }

/-- 41_validator.md R104: VSEG and VOPT do not depend on any SEGMEM byte at or beyond VLEN, written or a draw, on no
byte at all when VLEN is below 20, and VOPT, once its length checks pass, on no byte at or beyond 4·doff. -/
def Obligations.SvalReadsBelowVlen : Prop :=
  ∀ (i : Instr) (s t : State) (m : List Host.Cell) (c : Nat), exec i s = .next t →
    let agree := fun n : Nat => ∀ j < n, segRead { s with segmem := m, resetCount := c } j = segRead s j
    let same := exec i { s with segmem := m, resetCount := c } = .next { t with segmem := m, resetCount := c }
    let stop := 4 * ((segRead s 12).extractLsb' 4 4).toNat
    ((i = .vseg ∨ ∃ f, i = .vopt f) → agree s.vlen.toNat → same) ∧
    ((i = .vseg ∨ ∃ f, i = .vopt f) → s.vlen.toNat < 20 → same) ∧
    ((∃ f, i = .vopt f) → 20 ≤ stop → stop ≤ s.vlen.toNat → agree stop → same)

/-- 41_validator.md R127: VSEG and VOPT change RES0, RES1 and STATUS only, and the same inputs give the same verdict
and results. -/
def Obligations.SvalIsStateless : Prop :=
  ∀ i : Instr, (i = .vseg ∨ ∃ f, i = .vopt f) →
    (∀ s : State, ∃ code r0 r1, exec i s = .next { s with
      statusCode := code, statusLastOpc := i.opc, res0 := r0, res1 := r1 }) ∧
    (∀ s s' t t' : State,
      s'.cfg = s.cfg → s'.vlen = s.vlen → s'.vctrl = s.vctrl → s'.srcAddr = s.srcAddr →
      s'.dstAddr = s.dstAddr → s'.flagRej0 = s.flagRej0 → s'.flagRej1 = s.flagRej1 → s'.wl = s.wl →
      (∀ j, segRead s' j = segRead s j) → exec i s = .next t → exec i s' = .next t' →
      t'.statusCode = t.statusCode ∧
        (t.statusCode = 0 → t'.res0 = t.res0 ∧ t'.res1 = t.res1))

/-- 41_validator.md R114: the default rejected set, at the reset of any configuration; 32 of 64 combinations. -/
def Obligations.DefaultRejectedFlags : Prop :=
  ∀ p : Params,
    (∀ c : BitVec 6,
      flagRejected (State.resetFor p) c =
        ((c.getLsbD 1 && c.getLsbD 0) || (c.getLsbD 1 && c.getLsbD 2) ||
          !(c.getLsbD 1 || c.getLsbD 2 || c.getLsbD 4))) ∧
    (List.range 64).filter (fun c => flagRejected (State.resetFor p) (BitVec.ofNat 6 c)) =
      [0, 1, 3, 6, 7, 8, 9, 11, 14, 15, 19, 22, 23, 27, 30, 31, 32, 33, 35, 38, 39, 40, 41, 43, 46, 47, 51, 54,
        55, 59, 62, 63] ∧
    (List.range 64).filter (fun n =>
        let c := BitVec.ofNat 6 n
        !((c.getLsbD 1 && c.getLsbD 0) || (c.getLsbD 1 && c.getLsbD 2)) && flagRejected (State.resetFor p) c) =
      [0, 1, 8, 9, 32, 33, 40, 41] ∧
    (State.resetFor p).flagRej0 = 0xC8C8CBCB ∧ (State.resetFor p).flagRej1 = 0xC8C8CBCB

/-! ## What commands change -/

/-- 60_exceptions.md R179: a command that ends with an error changes STATUS only. -/
def Obligations.ErrorsChangeStatusOnly : Prop :=
  (∀ (i : Instr) (s t : State), exec i s = .next t → t.statusCode ≠ 0x00 →
    t = { s with statusCode := t.statusCode, statusLastOpc := i.opc }) ∧
  (∀ (w : Word) (s t : State), runCommand w s = .next t → t.statusCode ≠ 0x00 →
    t = { s with statusCode := t.statusCode, statusLastOpc := w.extractLsb' 0 8 })

/-- 10_state.md R26: the fields of STATUS, its reset, that every command writes CODE and LASTOPC, and that no other
access does; host writes are ignored. (What a change of the reset input does is ResetEvent.) -/
def Obligations.StatusRegisterFields : Prop :=
  (∀ s : State,
    (busRead 0x0000C s).extractLsb' 0 8 = s.statusCode ∧
    (busRead 0x0000C s).extractLsb' 8 8 = s.statusLastOpc ∧ (busRead 0x0000C s).extractLsb' 16 16 = 0) ∧
  (∀ p : Params, (State.resetFor p).statusCode = 0x00 ∧ (State.resetFor p).statusLastOpc = 0x00) ∧
  (∀ (w : Word) (s t : State), perform (.write 0x00010 w) s = .next t →
    t.statusLastOpc = w.extractLsb' 0 8 ∧ t.statusCode.toNat ≤ 5) ∧
  (∀ (e : BusEvent) (s t : State), perform e s = .next t →
    (∀ a v, e = .write a v → locate a ≠ .cmd) → (∀ level, e ≠ .resetInput level) →
    t.statusCode = s.statusCode ∧ t.statusLastOpc = s.statusLastOpc) ∧
  (∀ (v : Word) (s : State), s.inReset = false → perform (.write 0x0000C v) s = .next s)

/-- 10_state.md section 2 and 20_memory.md section 4: no command changes an operand or validator register, the
whitelists, SEGMEM (byte by byte), the configuration or the host's side; NOP alone succeeds without writing the
results. -/
def Obligations.CommandsKeepInputs : Prop :=
  ∀ (i : Instr) (s t : State), exec i s = .next t →
    t.opa = s.opa ∧ t.opb = s.opb ∧ t.vlen = s.vlen ∧ t.vctrl = s.vctrl ∧ t.srcAddr = s.srcAddr ∧
    t.dstAddr = s.dstAddr ∧ t.flagRej0 = s.flagRej0 ∧ t.flagRej1 = s.flagRej1 ∧ t.wl = s.wl ∧
    (∀ a, segRead t a = segRead s a) ∧ t.cfg = s.cfg ∧ t.inReset = s.inReset ∧
    t.resetCount = s.resetCount ∧ t.bus = s.bus ∧ t.reads = s.reads ∧
    (i = .nop → t.res0 = s.res0 ∧ t.res1 = s.res1)

/-- 10_state.md R35: the slot window shows a slot's fields; host writes to it are ignored; of the host's accesses only
ABT commands change a slot, and an ABT command only the one it names. (What a change of the reset input does is
ResetEvent.) -/
def Obligations.OnlyTrackerCommandsChangeSlots : Prop :=
  (∀ (n : Nat) (j : Fin 16) (t : Slot) (s : State), n < 256 → n < s.cfg.nTrk → s.slots[n]? = some t →
    busRead (BitVec.ofNat 17 (0x04000 + 64 * n + 4 * j.val)) s = slotWindowWord t j) ∧
  (∀ (a : Offset) (v : Word) (s : State), s.inReset = false → 0x04000 ≤ a.toNat → a.toNat < 0x08000 →
    perform (.write a v) s = .next s) ∧
  (∀ (i : Instr) (s t : State) (n : Nat), exec i s = .next t →
    (i.opc.toNat < 0x20 ∨ 0x27 < i.opc.toNat ∨ n ≠ i.index) → t.slots[n]? = s.slots[n]?) ∧
  (∀ (e : BusEvent) (s t : State), perform e s = .next t →
    (∀ a v, e = .write a v → locate a ≠ .cmd) → (∀ level, e ≠ .resetInput level) →
    t.slots = s.slots)

/-- 70_reset_and_hazards.md R198: no step, reset among them, changes the parameters. -/
def Obligations.ParametersNeverChange : Prop :=
  ∀ s t : State, step s = .next t → t.cfg = s.cfg

/-! ## The bus -/

/-- 20_memory.md R51: address bits [1:0] are ignored, and no access is refused for its alignment. -/
def Obligations.LowAddressBitsIgnored : Prop :=
  ∀ (a : Offset) (v : Word) (s : State),
    perform (.write a v) s = perform (.write (a &&& 0x1FFFC) v) s ∧
    busRead a s = busRead (a &&& 0x1FFFC) s ∧
    (s.inReset = false → ∃ t, perform (.write a v) s = .next t) ∧
    (s.inReset = false → ∃ t, perform (.read a) s = .next t)

/-- 20_memory.md section 2: every offset of the map names the place the table gives it; and what the registers of the
control region read as (10_state.md sections 2 to 4): ID its constant, CMD 0, the others what they hold. -/
def Obligations.AddressMapMatchesTable : Prop :=
  (locate 0x00000 = .id ∧ locate 0x00004 = .cfg0 ∧ locate 0x00008 = .cfg1 ∧ locate 0x0000C = .status ∧
    locate 0x00010 = .cmd ∧ locate 0x00014 = .opa ∧ locate 0x00018 = .opb ∧ locate 0x0001C = .res0 ∧
    locate 0x00020 = .res1 ∧ locate 0x00024 = .vlen ∧ locate 0x00028 = .vctrl ∧ locate 0x0002C = .reserved ∧
    locate 0x00050 = .flagRej0 ∧ locate 0x00054 = .flagRej1) ∧
  (∀ j : Fin 4, locate (BitVec.ofNat 17 (0x00030 + 4 * j.val)) = .srcAddr j ∧
    locate (BitVec.ofNat 17 (0x00040 + 4 * j.val)) = .dstAddr j) ∧
  (∀ f < 256, ∀ j : Fin 8, locate (BitVec.ofNat 17 (0x02000 + 32 * f + 4 * j.val)) = .wlWord f j) ∧
  (∀ n < 256, ∀ j : Fin 16, locate (BitVec.ofNat 17 (0x04000 + 64 * n + 4 * j.val)) = .slotWord n j) ∧
  (∀ k < 16384, locate (BitVec.ofNat 17 (0x10000 + 4 * k)) = .segWord k) ∧
  (∀ a : Offset, (0x00058 ≤ a.toNat ∧ a.toNat < 0x02000) ∨ (0x08000 ≤ a.toNat ∧ a.toNat < 0x10000) →
    locate a = .reserved) ∧
  (∀ s : State,
    busRead 0x00000 s = 0x53455131 ∧ busRead 0x00010 s = 0 ∧ busRead 0x00014 s = s.opa ∧
    busRead 0x00018 s = s.opb ∧ busRead 0x0001C s = s.res0 ∧ busRead 0x00020 s = s.res1 ∧
    busRead 0x00024 s = s.vlen ∧ busRead 0x0002C s = 0 ∧ busRead 0x00050 s = s.flagRej0 ∧
    busRead 0x00054 s = s.flagRej1 ∧
    ∀ j : Fin 4, busRead (BitVec.ofNat 17 (0x00030 + 4 * j.val)) s = s.srcAddr.get j ∧
      busRead (BitVec.ofNat 17 (0x00040 + 4 * j.val)) s = s.dstAddr.get j)

/-- 20_memory.md R61: reads have no side effect, a write other than to CMD stores and is idempotent, and a CMD write
is not idempotent in general. -/
def Obligations.AccessSideEffects : Prop :=
  (∀ (a : Offset) (s : State), s.inReset = false →
    perform (.read a) s = .next { s with reads := s.reads ++ [busRead a s] }) ∧
  (∀ (a : Offset) (v : Word) (s : State), s.inReset = false → locate a ≠ .cmd →
    ∃ t, perform (.write a v) s = .next t ∧ perform (.write a v) t = .next t ∧
      t.statusCode = s.statusCode ∧ t.statusLastOpc = s.statusLastOpc ∧ t.res0 = s.res0 ∧ t.res1 = s.res1 ∧
      t.slots = s.slots ∧ t.bus = s.bus ∧ t.reads = s.reads) ∧
  (∃ (w : Word) (s t u : State), perform (.write 0x00010 w) s = .next t ∧
    perform (.write 0x00010 w) t = .next u ∧ u ≠ t)

/-- 20_memory.md section 4 (side effects, consistency): a host write to a read-write place stores the word there (VCTRL
its bits [6:0]), reads back, and changes nothing else. -/
def Obligations.WrittenPlacesReadBack : Prop :=
  ∀ (v : Word) (s : State), s.inReset = false →
    let stores := fun (a : Offset) (t : State) => perform (.write a v) s = .next t ∧ busRead a t = v
    stores 0x00014 { s with opa := v } ∧ stores 0x00018 { s with opb := v } ∧
    stores 0x00024 { s with vlen := v } ∧ stores 0x00050 { s with flagRej0 := v } ∧
    stores 0x00054 { s with flagRej1 := v } ∧
    (∀ j : Fin 4, ∃ t, stores (BitVec.ofNat 17 (0x00030 + 4 * j.val)) t ∧ t = { s with srcAddr := t.srcAddr } ∧
      t.srcAddr.get j = v ∧ ∀ k, k ≠ j → t.srcAddr.get k = s.srcAddr.get k) ∧
    (∀ j : Fin 4, ∃ t, stores (BitVec.ofNat 17 (0x00040 + 4 * j.val)) t ∧ t = { s with dstAddr := t.dstAddr } ∧
      t.dstAddr.get j = v ∧ ∀ k, k ≠ j → t.dstAddr.get k = s.dstAddr.get k) ∧
    (∃ t, perform (.write 0x00028 v) s = .next t ∧ t = { s with vctrl := t.vctrl } ∧
      busRead 0x00028 t = v &&& 0x0000007F) ∧
    (∀ (f : Nat) (j : Fin 8), f < 256 → f < s.cfg.nFilt → s.wl.length = s.cfg.nFilt →
      ∃ t, stores (BitVec.ofNat 17 (0x02000 + 32 * f + 4 * j.val)) t ∧ t = { s with wl := t.wl }) ∧
    (∀ k, k < 16384 → 4 * k < s.cfg.segMax →
      ∃ t, stores (BitVec.ofNat 17 (0x10000 + 4 * k)) t ∧ t = { s with segmem := t.segmem })

/-- 20_memory.md section 4 (side effects, consistency): a host write to one place, other than CMD, leaves what every other
place reads as. -/
def Obligations.WritesLeaveOtherPlaces : Prop :=
  ∀ (a : Offset) (v : Word) (s : State), s.inReset = false → locate a ≠ .cmd →
    ∃ t, perform (.write a v) s = .next t ∧ ∀ b : Offset, locate b ≠ locate a → busRead b t = busRead b s

/-- 20_memory.md R58: reserved places read 0 and ignore writes; read-only registers ignore writes; STATUS is
unchanged. -/
def Obligations.ReservedAndReadOnlyPlaces : Prop :=
  ∀ (a : Offset) (v : Word) (s : State), s.inReset = false →
    ((locate a = .reserved ∨ (∃ n j, locate a = .slotWord n j ∧ (s.cfg.nTrk ≤ n ∨ 11 ≤ j.val)) ∨
        (∃ f j, locate a = .wlWord f j ∧ s.cfg.nFilt ≤ f) ∨
        (∃ k, locate a = .segWord k ∧ s.cfg.segMax ≤ 4 * k)) →
      perform (.read a) s = .next { s with reads := s.reads ++ [0x00000000] } ∧
        perform (.write a v) s = .next s) ∧
    (locate a ∈ [Location.id, .cfg0, .cfg1, .status, .res0, .res1] → perform (.write a v) s = .next s) ∧
    (∀ n j, locate a = .slotWord n j → perform (.write a v) s = .next s) ∧
    vctrlOfWord v = vctrlOfWord (v &&& 0x0000007F) ∧ vctrlWord (vctrlOfWord v) &&& 0xFFFFFF80 = 0

/-- 10_state.md R29: the fields of VCTRL as written, as read and at reset. -/
def Obligations.VctrlFields : Prop :=
  (∀ p : Params, (State.resetFor p).vctrl = { af := 0, dtype := 0, astate := 0, csumok := 0 }) ∧
  ∀ (v : Word) (s : State), s.inReset = false →
    ∃ c : Vctrl,
      perform (.write 0x00028 v) s = .next { s with vctrl := c } ∧
      busRead 0x00028 { s with vctrl := c } = v &&& 0x0000007F ∧
      c.af.toNat = v.toNat % 2 ∧ c.dtype.toNat = v.toNat / 2 % 4 ∧
      c.astate.toNat = v.toNat / 8 % 8 ∧ c.csumok.toNat = v.toNat / 64 % 2

/-- 10_state.md R25: CFG0 and CFG1 show the parameters of a legal configuration and ignore writes. -/
def Obligations.ConfigurationRegisters : Prop :=
  ∀ s : State, s.cfg.Legal →
    ((busRead 0x00004 s).extractLsb' 0 16).toNat = s.cfg.segMax ∧
    ((busRead 0x00004 s).extractLsb' 16 8).toNat = s.cfg.nTrk - 1 ∧
    ((busRead 0x00004 s).extractLsb' 24 8).toNat = s.cfg.nFilt - 1 ∧
    (busRead 0x00008 s).toNat = s.cfg.capMax ∧
    ∀ v : Word, s.inReset = false →
      perform (.write 0x00004 v) s = .next s ∧ perform (.write 0x00008 v) s = .next s

/-- 20_memory.md R53: the whitelist window, read and written, and the bits of the whitelist it holds. -/
def Obligations.WhitelistWindow : Prop :=
  ∀ (f : Nat) (j : Fin 8) (v : Word) (s : State), f < 256 → s.inReset = false →
    (f < s.cfg.nFilt → s.wl.length = s.cfg.nFilt →
      ∃ t, perform (.write (BitVec.ofNat 17 (0x02000 + 32 * f + 4 * j.val)) v) s = .next t ∧
        t = { s with wl := t.wl } ∧
        busRead (BitVec.ofNat 17 (0x02000 + 32 * f + 4 * j.val)) t = v ∧
        (∀ k : Byte, whitelisted t f k =
          if k.toNat / 32 = j.val then v.getLsbD (k.toNat % 32) else whitelisted s f k) ∧
        (∀ g k, g ≠ f → whitelisted t g k = whitelisted s g k)) ∧
    (s.cfg.nFilt ≤ f →
      busRead (BitVec.ofNat 17 (0x02000 + 32 * f + 4 * j.val)) s = 0 ∧
      perform (.write (BitVec.ofNat 17 (0x02000 + 32 * f + 4 * j.val)) v) s = .next s)

/-- 20_memory.md R55: the sixteen words of a slot's window; writes are ignored. -/
def Obligations.SlotWindowWords : Prop :=
  ∀ (n : Nat) (t : Slot) (s : State), n < 256 → n < s.cfg.nTrk → s.slots[n]? = some t →
    let word := fun o : Nat => busRead (BitVec.ofNat 17 (0x04000 + 64 * n + o)) s
    (word 0x00 = (if t.active then 1 else 0) ∧ word 0x04 = t.cap ∧ word 0x08 = t.used ∧ word 0x0C = t.send ∧
      word 0x10 = t.curr ∧ word 0x14 = t.cap - t.used ∧ word 0x18 = t.una ∧ word 0x1C = t.nxt ∧
      word 0x20 = t.start ∧ word 0x24 = t.head ∧
      word 0x28 = (if t.cap = 0 then 0 else (t.head + t.used) % t.cap) ∧
      word 0x2C = 0 ∧ word 0x30 = 0 ∧ word 0x34 = 0 ∧ word 0x38 = 0 ∧ word 0x3C = 0) ∧
    (∀ (o : Nat) (v : Word), o < 64 → s.inReset = false →
      perform (.write (BitVec.ofNat 17 (0x04000 + 64 * n + o)) v) s = .next s)

/-- 20_memory.md R56: the SEGMEM window's write, its four lanes, every other byte unchanged, and the reserved
words. -/
def Obligations.SegmemWindowWrite : Prop :=
  ∀ (k : Nat) (v : Word) (s : State), k < 16384 → s.inReset = false →
    (4 * k < s.cfg.segMax →
      ∃ t, perform (.write (BitVec.ofNat 17 (0x10000 + 4 * k)) v) s = .next t ∧
        t = { s with segmem := t.segmem } ∧
        segRead t (4 * k) = v.extractLsb' 24 8 ∧ segRead t (4 * k + 1) = v.extractLsb' 16 8 ∧
        segRead t (4 * k + 2) = v.extractLsb' 8 8 ∧ segRead t (4 * k + 3) = v.extractLsb' 0 8 ∧
        (∀ i, i < 4 * k ∨ 4 * k + 4 ≤ i → segRead t i = segRead s i)) ∧
    (s.cfg.segMax ≤ 4 * k →
      perform (.write (BitVec.ofNat 17 (0x10000 + 4 * k)) v) s = .next s) ∧
    (s.cfg.Legal → 4 * k < s.cfg.segMax → 4 * k + 3 < s.cfg.segMax)

/-- 20_memory.md R57: the SEGMEM window's read, without side effect. -/
def Obligations.SegmemWindowRead : Prop :=
  ∀ (k : Nat) (s : State), k < 16384 → 4 * k < s.cfg.segMax →
    busRead (BitVec.ofNat 17 (0x10000 + 4 * k)) s =
      segRead s (4 * k) ++ segRead s (4 * k + 1) ++ segRead s (4 * k + 2) ++ segRead s (4 * k + 3) ∧
    (s.inReset = false → ∃ t, perform (.read (BitVec.ofNat 17 (0x10000 + 4 * k))) s = .next t ∧
      { t with reads := s.reads } = s)

/-! ## Reset and invariants -/

/-- 70_reset_and_hazards.md section 1. While reset is asserted every access is refused; releasing it puts every element
to its reset value, no SEGMEM byte being written and each read being a new draw, and keeps the parameters. The model's
choices in it: how SEGMEM's draws are held (`segmem`, `resetCount`; log 3, log 4), that asserting reset raises the input
and changes nothing else, and that releasing a released input changes nothing (log 5). -/
def Obligations.ResetEvent : Prop :=
  (∀ (s : State) (a : Offset) (v : Word), s.inReset = true →
    perform (.read a) s = .refused .accessDuringReset ∧
    perform (.write a v) s = .refused .accessDuringReset) ∧
  (∀ s : State, perform (.resetInput true) s = .next { s with inReset := true }) ∧
  (∀ s : State, s.inReset = false → perform (.resetInput false) s = .next s) ∧
  (∀ s : State, s.inReset = true → ∃ t, perform (.resetInput false) s = .next t ∧
    t.opa = 0 ∧ t.opb = 0 ∧ t.res0 = 0 ∧ t.res1 = 0 ∧ busRead 0x0000C t = 0 ∧ t.vlen = 0 ∧
    busRead 0x00028 t = 0 ∧ t.srcAddr.toList = [0, 0, 0, 0] ∧ t.dstAddr.toList = [0, 0, 0, 0] ∧
    t.flagRej0 = 0xC8C8CBCB ∧ t.flagRej1 = 0xC8C8CBCB ∧
    (t.wl.length = s.cfg.nFilt ∧ ∀ f k, whitelisted t f k = false) ∧
    (t.slots.length = s.cfg.nTrk ∧ ∀ (n : Nat) (u : Slot), t.slots[n]? = some u → u =
      ({ active := false, cap := 0, used := 0, send := 0, curr := 0, una := 0, nxt := 0, start := 0,
         head := 0 } : Slot)) ∧
    t.segmem = [] ∧ t.resetCount = s.resetCount + 1 ∧
    (∀ i, segRead t i = Config.segDraw (s.resetCount + 1) i) ∧
    t.inReset = false ∧ t.cfg = s.cfg ∧ t.bus = s.bus ∧ t.reads = s.reads)

/-- 10_state.md section 5: the invariant holds at the reset of every legal configuration, and so at the model's,
whose configuration is the model's choice (log 2). -/
def Obligations.ResetEstablishesInvariant : Prop :=
  (∀ p : Params, p.Legal → (State.resetFor p).Inv) ∧ State.reset.Inv

/-- 10_state.md section 5, 42_acktracker.md section 6: every step, whatever the host's event, keeps the invariant:
the slot invariants (I1) to (I6), legal STATUS codes, the sizes, and SEGMEM's canonical form. -/
def Obligations.StepKeepsInvariant : Prop :=
  ∀ s t : State, s.Inv → step s = .next t → t.Inv

/-- 42_acktracker.md R152: for every sequence of host events, so of ABT commands, from any state with the invariant,
USED ≥ SEND ≥ CURR in every slot afterwards. -/
def Obligations.BufferOrderHoldsAlongRuns : Prop :=
  ∀ (k : Nat) (s t : State), s.Inv → core.run k s = .next t →
    ∀ u ∈ t.slots, u.curr.toNat ≤ u.send.toNat ∧ u.send.toNat ≤ u.used.toNat

/-! ## Host assembly -/

/-- 30_encoding.md R80: the expansion of every mnemonic, and an operand written as a register name. -/
def Obligations.MnemonicExpansions : Prop :=
  (∀ a b, expandLine (.command .nop a b [] none) = [.wr .cmd (.lit 0x00000000)]) ∧
  (∀ a b, expandLine (.command .slt (.value a) (.value b) [] none) =
    [.wr .opa a, .wr .opb b, .wr .cmd (.lit 0x00000010)]) ∧
  (∀ a b, expandLine (.command .sle (.value a) (.value b) [] none) =
    [.wr .opa a, .wr .opb b, .wr .cmd (.lit 0x00000011)]) ∧
  (∀ a b, expandLine (.command .sdist (.value a) (.value b) [] none) =
    [.wr .opa a, .wr .opb b, .wr .cmd (.lit 0x00000012)]) ∧
  (∀ s < 256, ∀ iss cap, expandLine (.command (.tinit s) (.value iss) (.value cap) [] none) =
    [.wr .opa iss, .wr .opb cap, .wr .cmd (.lit (BitVec.ofNat 32 (0x00000020 + 256 * s)))]) ∧
  (∀ s < 256, ∀ a b, expandLine (.command (.trel s) a b [] none) =
    [.wr .cmd (.lit (BitVec.ofNat 32 (0x00000021 + 256 * s)))]) ∧
  (∀ s < 256, ∀ n b, expandLine (.command (.tqueue s) (.value n) b [] none) =
    [.wr .opa n, .wr .cmd (.lit (BitVec.ofNat 32 (0x00000022 + 256 * s)))]) ∧
  (∀ s < 256, ∀ n b, expandLine (.command (.tmark s) (.value n) b [] none) =
    [.wr .opa n, .wr .cmd (.lit (BitVec.ofNat 32 (0x00000023 + 256 * s)))]) ∧
  (∀ s < 256, ∀ n b, expandLine (.command (.tfree s) (.value n) b [] none) =
    [.wr .opa n, .wr .cmd (.lit (BitVec.ofNat 32 (0x00000024 + 256 * s)))]) ∧
  (∀ s < 256, ∀ n b, expandLine (.command (.tack s) (.value n) b [] none) =
    [.wr .opa n, .wr .cmd (.lit (BitVec.ofNat 32 (0x00000025 + 256 * s)))]) ∧
  (∀ s < 256, ∀ a b, expandLine (.command (.trtx s) a b [] none) =
    [.wr .cmd (.lit (BitVec.ofNat 32 (0x00000026 + 256 * s)))]) ∧
  (∀ s < 256, ∀ n b, expandLine (.command (.trmark s) (.value n) b [] none) =
    [.wr .opa n, .wr .cmd (.lit (BitVec.ofNat 32 (0x00000027 + 256 * s)))]) ∧
  (∀ a b, expandLine (.command .vseg a b [] none) = [.wr .cmd (.lit 0x00000030)]) ∧
  (∀ f < 256, ∀ a b, expandLine (.command (.vopt f) a b [] none) =
    [.wr .cmd (.lit (BitVec.ofNat 32 (0x00000031 + 256 * f)))]) ∧
  (∀ i, expandLine (.command i .register .register [] none) = [.wr .cmd (.lit (encode i))]) ∧
  (∀ i v, readsOpb i = true →
    expandLine (.command i (.value v) .register [] none) = [.wr .opa v, .wr .cmd (.lit (encode i))] ∧
    expandLine (.command i .register (.value v) [] none) = [.wr .opb v, .wr .cmd (.lit (encode i))])
end

