-- ==== Sys2Proof/Laws/Memory.lean ====
section
/-! SUPPORT. SEGMEM as a list of written bytes: reading after a write, and the canonical form. -/

namespace Sys2Proof.Machine

@[simp] theorem Memory.lookup_write_self (m : List Host.Cell) (i : Nat) (b : Byte) :
    Memory.lookup (Memory.write m i b) i = some b := by
  induction m with
  | nil => simp [Memory.write, Memory.lookup]
  | cons c m ih =>
    obtain ⟨k, d⟩ := c
    simp only [Memory.write]
    split
    · simp [Memory.lookup]
    · split
      · simp [Memory.lookup]
      · have : k ≠ i := by omega
        simp [Memory.lookup, this, ih]

theorem Memory.lookup_write_ne (m : List Host.Cell) {i j : Nat} (b : Byte) (h : j ≠ i) :
    Memory.lookup (Memory.write m i b) j = Memory.lookup m j := by
  have h' : i ≠ j := Ne.symm h
  induction m with
  | nil => simp [Memory.write, Memory.lookup, h']
  | cons c m ih =>
    obtain ⟨k, d⟩ := c
    simp only [Memory.write]
    split
    · simp [Memory.lookup, h']
    · split
      next hk => subst hk; simp [Memory.lookup, h']
      next => simp [Memory.lookup, ih]

/-- Every index of a list after a write is the written one or was there before. -/
theorem Memory.mem_write {m : List Host.Cell} {i : Nat} {b : Byte} {c : Host.Cell}
    (h : c ∈ Memory.write m i b) : c = (i, b) ∨ c ∈ m := by
  induction m with
  | nil => simpa [Memory.write] using h
  | cons d m ih =>
    obtain ⟨k, e⟩ := d
    simp only [Memory.write] at h
    split at h
    · simpa using h
    · split at h
      · rcases List.mem_cons.1 h with h | h
        · exact .inl h
        · exact .inr (List.mem_cons_of_mem _ h)
      · rcases List.mem_cons.1 h with h | h
        · exact .inr (h ▸ List.mem_cons_self ..)
        · rcases ih h with h | h
          · exact .inl h
          · exact .inr (List.mem_cons_of_mem _ h)

/-- A write keeps the canonical form. -/
theorem Memory.write_wf {m : List Host.Cell} (i : Nat) (b : Byte) (h : Memory.wf m) :
    Memory.wf (Memory.write m i b) := by
  induction m with
  | nil => simp [Memory.write]
  | cons d m ih =>
    obtain ⟨k, e⟩ := d
    have hd := List.pairwise_cons.1 h
    simp only [Memory.write]
    split
    next hlt =>
      refine List.pairwise_cons.2 ⟨fun c hc => ?_, h⟩
      rcases List.mem_cons.1 hc with rfl | hc
      · exact hlt
      · have := hd.1 c hc
        simp only at this ⊢
        omega
    next =>
      split
      next heq =>
        subst heq
        exact List.pairwise_cons.2 ⟨fun c hc => hd.1 c hc, hd.2⟩
      next =>
        refine List.pairwise_cons.2 ⟨fun c hc => ?_, ih hd.2⟩
        rcases Memory.mem_write hc with rfl | hc
        · simp only
          omega
        · exact hd.1 c hc

/-- A write below `size` keeps every index below `size`. -/
theorem Memory.write_within {m : List Host.Cell} {size i : Nat} (b : Byte) (hi : i < size)
    (h : Memory.within size m) : Memory.within size (Memory.write m i b) := by
  intro c hc
  rcases Memory.mem_write hc with rfl | hc
  · exact hi
  · exact h c hc

/-- Writing consecutive bytes keeps the canonical form. -/
theorem Memory.writeAll_wf {m : List Host.Cell} (i : Nat) (bs : List Byte) (h : Memory.wf m) :
    Memory.wf (Memory.writeAll m i bs) := by
  induction bs generalizing m i with
  | nil => exact h
  | cons b bs ih => exact ih (i + 1) (Memory.write_wf i b h)

/-- Writing consecutive bytes below `size` keeps every index below `size`. -/
theorem Memory.writeAll_within {m : List Host.Cell} {size i : Nat} (bs : List Byte)
    (hi : i + bs.length ≤ size) (h : Memory.within size m) :
    Memory.within size (Memory.writeAll m i bs) := by
  induction bs generalizing m i with
  | nil => exact h
  | cons b bs ih =>
    simp only [List.length_cons] at hi
    exact ih (by omega) (Memory.write_within b (by omega) h)

/-- Writing consecutive bytes leaves every other index as it was. -/
theorem Memory.lookup_writeAll_outside (m : List Host.Cell) (i j : Nat) (bs : List Byte)
    (h : j < i ∨ i + bs.length ≤ j) :
    Memory.lookup (Memory.writeAll m i bs) j = Memory.lookup m j := by
  induction bs generalizing m i with
  | nil => rfl
  | cons b bs ih =>
    simp only [List.length_cons] at h
    rw [Memory.writeAll, ih _ _ (by omega), Memory.lookup_write_ne _ _ (by omega)]

/-- Writing consecutive bytes puts byte `j` of them at index `i + j`. -/
theorem Memory.lookup_writeAll_inside (m : List Host.Cell) (i j : Nat) (bs : List Byte)
    (h : j < bs.length) :
    Memory.lookup (Memory.writeAll m i bs) (i + j) = bs[j]? := by
  induction bs generalizing m i j with
  | nil => simp at h
  | cons b bs ih =>
    rw [Memory.writeAll]
    cases j with
    | zero => rw [Memory.lookup_writeAll_outside _ _ _ _ (by omega)]; simp
    | succ j =>
      have := ih (Memory.write m i b) (i + 1) j (by simpa using h)
      rw [show i + (j + 1) = i + 1 + j by omega, this]; simp

@[simp] theorem bytesOf_length (v : Word) : (bytesOf v).length = 4 := rfl

end Sys2Proof.Machine
end

