-- ==== Sys2Proof/Laws/State.lean ====
section
/-! SUPPORT. One lemma per field per update of the state, so that no later proof unfolds a record update. -/

namespace Sys2Proof.Machine

/-! ### setStatus -/

@[simp] theorem setStatus_cfg (code lastOpc : Byte) (s : State) : (setStatus code lastOpc s).cfg = s.cfg := rfl
@[simp] theorem setStatus_opa (code lastOpc : Byte) (s : State) : (setStatus code lastOpc s).opa = s.opa := rfl
@[simp] theorem setStatus_opb (code lastOpc : Byte) (s : State) : (setStatus code lastOpc s).opb = s.opb := rfl
@[simp] theorem setStatus_res0 (code lastOpc : Byte) (s : State) : (setStatus code lastOpc s).res0 = s.res0 := rfl
@[simp] theorem setStatus_res1 (code lastOpc : Byte) (s : State) : (setStatus code lastOpc s).res1 = s.res1 := rfl
@[simp] theorem setStatus_statusCode (code lastOpc : Byte) (s : State) : (setStatus code lastOpc s).statusCode = code := rfl
@[simp] theorem setStatus_statusLastOpc (code lastOpc : Byte) (s : State) : (setStatus code lastOpc s).statusLastOpc = lastOpc := rfl
@[simp] theorem setStatus_vlen (code lastOpc : Byte) (s : State) : (setStatus code lastOpc s).vlen = s.vlen := rfl
@[simp] theorem setStatus_vctrl (code lastOpc : Byte) (s : State) : (setStatus code lastOpc s).vctrl = s.vctrl := rfl
@[simp] theorem setStatus_srcAddr (code lastOpc : Byte) (s : State) : (setStatus code lastOpc s).srcAddr = s.srcAddr := rfl
@[simp] theorem setStatus_dstAddr (code lastOpc : Byte) (s : State) : (setStatus code lastOpc s).dstAddr = s.dstAddr := rfl
@[simp] theorem setStatus_flagRej0 (code lastOpc : Byte) (s : State) : (setStatus code lastOpc s).flagRej0 = s.flagRej0 := rfl
@[simp] theorem setStatus_flagRej1 (code lastOpc : Byte) (s : State) : (setStatus code lastOpc s).flagRej1 = s.flagRej1 := rfl
@[simp] theorem setStatus_wl (code lastOpc : Byte) (s : State) : (setStatus code lastOpc s).wl = s.wl := rfl
@[simp] theorem setStatus_slots (code lastOpc : Byte) (s : State) : (setStatus code lastOpc s).slots = s.slots := rfl
@[simp] theorem setStatus_segmem (code lastOpc : Byte) (s : State) : (setStatus code lastOpc s).segmem = s.segmem := rfl
@[simp] theorem setStatus_inReset (code lastOpc : Byte) (s : State) : (setStatus code lastOpc s).inReset = s.inReset := rfl
@[simp] theorem setStatus_resetCount (code lastOpc : Byte) (s : State) : (setStatus code lastOpc s).resetCount = s.resetCount := rfl
@[simp] theorem setStatus_bus (code lastOpc : Byte) (s : State) : (setStatus code lastOpc s).bus = s.bus := rfl
@[simp] theorem setStatus_reads (code lastOpc : Byte) (s : State) : (setStatus code lastOpc s).reads = s.reads := rfl

/-! ### finish -/

@[simp] theorem finish_cfg (opc : Byte) (r0 r1 : Word) (s : State) : (finish opc r0 r1 s).cfg = s.cfg := rfl
@[simp] theorem finish_opa (opc : Byte) (r0 r1 : Word) (s : State) : (finish opc r0 r1 s).opa = s.opa := rfl
@[simp] theorem finish_opb (opc : Byte) (r0 r1 : Word) (s : State) : (finish opc r0 r1 s).opb = s.opb := rfl
@[simp] theorem finish_res0 (opc : Byte) (r0 r1 : Word) (s : State) : (finish opc r0 r1 s).res0 = r0 := rfl
@[simp] theorem finish_res1 (opc : Byte) (r0 r1 : Word) (s : State) : (finish opc r0 r1 s).res1 = r1 := rfl
@[simp] theorem finish_statusCode (opc : Byte) (r0 r1 : Word) (s : State) : (finish opc r0 r1 s).statusCode = 0 := rfl
@[simp] theorem finish_statusLastOpc (opc : Byte) (r0 r1 : Word) (s : State) : (finish opc r0 r1 s).statusLastOpc = opc := rfl
@[simp] theorem finish_vlen (opc : Byte) (r0 r1 : Word) (s : State) : (finish opc r0 r1 s).vlen = s.vlen := rfl
@[simp] theorem finish_vctrl (opc : Byte) (r0 r1 : Word) (s : State) : (finish opc r0 r1 s).vctrl = s.vctrl := rfl
@[simp] theorem finish_srcAddr (opc : Byte) (r0 r1 : Word) (s : State) : (finish opc r0 r1 s).srcAddr = s.srcAddr := rfl
@[simp] theorem finish_dstAddr (opc : Byte) (r0 r1 : Word) (s : State) : (finish opc r0 r1 s).dstAddr = s.dstAddr := rfl
@[simp] theorem finish_flagRej0 (opc : Byte) (r0 r1 : Word) (s : State) : (finish opc r0 r1 s).flagRej0 = s.flagRej0 := rfl
@[simp] theorem finish_flagRej1 (opc : Byte) (r0 r1 : Word) (s : State) : (finish opc r0 r1 s).flagRej1 = s.flagRej1 := rfl
@[simp] theorem finish_wl (opc : Byte) (r0 r1 : Word) (s : State) : (finish opc r0 r1 s).wl = s.wl := rfl
@[simp] theorem finish_slots (opc : Byte) (r0 r1 : Word) (s : State) : (finish opc r0 r1 s).slots = s.slots := rfl
@[simp] theorem finish_segmem (opc : Byte) (r0 r1 : Word) (s : State) : (finish opc r0 r1 s).segmem = s.segmem := rfl
@[simp] theorem finish_inReset (opc : Byte) (r0 r1 : Word) (s : State) : (finish opc r0 r1 s).inReset = s.inReset := rfl
@[simp] theorem finish_resetCount (opc : Byte) (r0 r1 : Word) (s : State) : (finish opc r0 r1 s).resetCount = s.resetCount := rfl
@[simp] theorem finish_bus (opc : Byte) (r0 r1 : Word) (s : State) : (finish opc r0 r1 s).bus = s.bus := rfl
@[simp] theorem finish_reads (opc : Byte) (r0 r1 : Word) (s : State) : (finish opc r0 r1 s).reads = s.reads := rfl

/-! ### raiseErr -/

@[simp] theorem raiseErr_cfg (e : ErrCode) (opc : Byte) (s : State) : (raiseErr e opc s).cfg = s.cfg := rfl
@[simp] theorem raiseErr_opa (e : ErrCode) (opc : Byte) (s : State) : (raiseErr e opc s).opa = s.opa := rfl
@[simp] theorem raiseErr_opb (e : ErrCode) (opc : Byte) (s : State) : (raiseErr e opc s).opb = s.opb := rfl
@[simp] theorem raiseErr_res0 (e : ErrCode) (opc : Byte) (s : State) : (raiseErr e opc s).res0 = s.res0 := rfl
@[simp] theorem raiseErr_res1 (e : ErrCode) (opc : Byte) (s : State) : (raiseErr e opc s).res1 = s.res1 := rfl
@[simp] theorem raiseErr_statusCode (e : ErrCode) (opc : Byte) (s : State) : (raiseErr e opc s).statusCode = errCodeByte e := rfl
@[simp] theorem raiseErr_statusLastOpc (e : ErrCode) (opc : Byte) (s : State) : (raiseErr e opc s).statusLastOpc = opc := rfl
@[simp] theorem raiseErr_vlen (e : ErrCode) (opc : Byte) (s : State) : (raiseErr e opc s).vlen = s.vlen := rfl
@[simp] theorem raiseErr_vctrl (e : ErrCode) (opc : Byte) (s : State) : (raiseErr e opc s).vctrl = s.vctrl := rfl
@[simp] theorem raiseErr_srcAddr (e : ErrCode) (opc : Byte) (s : State) : (raiseErr e opc s).srcAddr = s.srcAddr := rfl
@[simp] theorem raiseErr_dstAddr (e : ErrCode) (opc : Byte) (s : State) : (raiseErr e opc s).dstAddr = s.dstAddr := rfl
@[simp] theorem raiseErr_flagRej0 (e : ErrCode) (opc : Byte) (s : State) : (raiseErr e opc s).flagRej0 = s.flagRej0 := rfl
@[simp] theorem raiseErr_flagRej1 (e : ErrCode) (opc : Byte) (s : State) : (raiseErr e opc s).flagRej1 = s.flagRej1 := rfl
@[simp] theorem raiseErr_wl (e : ErrCode) (opc : Byte) (s : State) : (raiseErr e opc s).wl = s.wl := rfl
@[simp] theorem raiseErr_slots (e : ErrCode) (opc : Byte) (s : State) : (raiseErr e opc s).slots = s.slots := rfl
@[simp] theorem raiseErr_segmem (e : ErrCode) (opc : Byte) (s : State) : (raiseErr e opc s).segmem = s.segmem := rfl
@[simp] theorem raiseErr_inReset (e : ErrCode) (opc : Byte) (s : State) : (raiseErr e opc s).inReset = s.inReset := rfl
@[simp] theorem raiseErr_resetCount (e : ErrCode) (opc : Byte) (s : State) : (raiseErr e opc s).resetCount = s.resetCount := rfl
@[simp] theorem raiseErr_bus (e : ErrCode) (opc : Byte) (s : State) : (raiseErr e opc s).bus = s.bus := rfl
@[simp] theorem raiseErr_reads (e : ErrCode) (opc : Byte) (s : State) : (raiseErr e opc s).reads = s.reads := rfl

/-! ### State.setSlot -/

@[simp] theorem State.setSlot_cfg (s : State) (n : Nat) (t : Slot) : (s.setSlot n t).cfg = s.cfg := rfl
@[simp] theorem State.setSlot_opa (s : State) (n : Nat) (t : Slot) : (s.setSlot n t).opa = s.opa := rfl
@[simp] theorem State.setSlot_opb (s : State) (n : Nat) (t : Slot) : (s.setSlot n t).opb = s.opb := rfl
@[simp] theorem State.setSlot_res0 (s : State) (n : Nat) (t : Slot) : (s.setSlot n t).res0 = s.res0 := rfl
@[simp] theorem State.setSlot_res1 (s : State) (n : Nat) (t : Slot) : (s.setSlot n t).res1 = s.res1 := rfl
@[simp] theorem State.setSlot_statusCode (s : State) (n : Nat) (t : Slot) : (s.setSlot n t).statusCode = s.statusCode := rfl
@[simp] theorem State.setSlot_statusLastOpc (s : State) (n : Nat) (t : Slot) : (s.setSlot n t).statusLastOpc = s.statusLastOpc := rfl
@[simp] theorem State.setSlot_vlen (s : State) (n : Nat) (t : Slot) : (s.setSlot n t).vlen = s.vlen := rfl
@[simp] theorem State.setSlot_vctrl (s : State) (n : Nat) (t : Slot) : (s.setSlot n t).vctrl = s.vctrl := rfl
@[simp] theorem State.setSlot_srcAddr (s : State) (n : Nat) (t : Slot) : (s.setSlot n t).srcAddr = s.srcAddr := rfl
@[simp] theorem State.setSlot_dstAddr (s : State) (n : Nat) (t : Slot) : (s.setSlot n t).dstAddr = s.dstAddr := rfl
@[simp] theorem State.setSlot_flagRej0 (s : State) (n : Nat) (t : Slot) : (s.setSlot n t).flagRej0 = s.flagRej0 := rfl
@[simp] theorem State.setSlot_flagRej1 (s : State) (n : Nat) (t : Slot) : (s.setSlot n t).flagRej1 = s.flagRej1 := rfl
@[simp] theorem State.setSlot_wl (s : State) (n : Nat) (t : Slot) : (s.setSlot n t).wl = s.wl := rfl
@[simp] theorem State.setSlot_slots (s : State) (n : Nat) (t : Slot) : (s.setSlot n t).slots = s.slots.set n t := rfl
@[simp] theorem State.setSlot_segmem (s : State) (n : Nat) (t : Slot) : (s.setSlot n t).segmem = s.segmem := rfl
@[simp] theorem State.setSlot_inReset (s : State) (n : Nat) (t : Slot) : (s.setSlot n t).inReset = s.inReset := rfl
@[simp] theorem State.setSlot_resetCount (s : State) (n : Nat) (t : Slot) : (s.setSlot n t).resetCount = s.resetCount := rfl
@[simp] theorem State.setSlot_bus (s : State) (n : Nat) (t : Slot) : (s.setSlot n t).bus = s.bus := rfl
@[simp] theorem State.setSlot_reads (s : State) (n : Nat) (t : Slot) : (s.setSlot n t).reads = s.reads := rfl

/-! ### finishSlot -/

@[simp] theorem finishSlot_cfg (opc : Byte) (n : Nat) (t : Slot) (r0 r1 : Word) (s : State) : (finishSlot opc n t r0 r1 s).cfg = s.cfg := rfl
@[simp] theorem finishSlot_opa (opc : Byte) (n : Nat) (t : Slot) (r0 r1 : Word) (s : State) : (finishSlot opc n t r0 r1 s).opa = s.opa := rfl
@[simp] theorem finishSlot_opb (opc : Byte) (n : Nat) (t : Slot) (r0 r1 : Word) (s : State) : (finishSlot opc n t r0 r1 s).opb = s.opb := rfl
@[simp] theorem finishSlot_res0 (opc : Byte) (n : Nat) (t : Slot) (r0 r1 : Word) (s : State) : (finishSlot opc n t r0 r1 s).res0 = r0 := rfl
@[simp] theorem finishSlot_res1 (opc : Byte) (n : Nat) (t : Slot) (r0 r1 : Word) (s : State) : (finishSlot opc n t r0 r1 s).res1 = r1 := rfl
@[simp] theorem finishSlot_statusCode (opc : Byte) (n : Nat) (t : Slot) (r0 r1 : Word) (s : State) : (finishSlot opc n t r0 r1 s).statusCode = 0 := rfl
@[simp] theorem finishSlot_statusLastOpc (opc : Byte) (n : Nat) (t : Slot) (r0 r1 : Word) (s : State) : (finishSlot opc n t r0 r1 s).statusLastOpc = opc := rfl
@[simp] theorem finishSlot_vlen (opc : Byte) (n : Nat) (t : Slot) (r0 r1 : Word) (s : State) : (finishSlot opc n t r0 r1 s).vlen = s.vlen := rfl
@[simp] theorem finishSlot_vctrl (opc : Byte) (n : Nat) (t : Slot) (r0 r1 : Word) (s : State) : (finishSlot opc n t r0 r1 s).vctrl = s.vctrl := rfl
@[simp] theorem finishSlot_srcAddr (opc : Byte) (n : Nat) (t : Slot) (r0 r1 : Word) (s : State) : (finishSlot opc n t r0 r1 s).srcAddr = s.srcAddr := rfl
@[simp] theorem finishSlot_dstAddr (opc : Byte) (n : Nat) (t : Slot) (r0 r1 : Word) (s : State) : (finishSlot opc n t r0 r1 s).dstAddr = s.dstAddr := rfl
@[simp] theorem finishSlot_flagRej0 (opc : Byte) (n : Nat) (t : Slot) (r0 r1 : Word) (s : State) : (finishSlot opc n t r0 r1 s).flagRej0 = s.flagRej0 := rfl
@[simp] theorem finishSlot_flagRej1 (opc : Byte) (n : Nat) (t : Slot) (r0 r1 : Word) (s : State) : (finishSlot opc n t r0 r1 s).flagRej1 = s.flagRej1 := rfl
@[simp] theorem finishSlot_wl (opc : Byte) (n : Nat) (t : Slot) (r0 r1 : Word) (s : State) : (finishSlot opc n t r0 r1 s).wl = s.wl := rfl
@[simp] theorem finishSlot_slots (opc : Byte) (n : Nat) (t : Slot) (r0 r1 : Word) (s : State) : (finishSlot opc n t r0 r1 s).slots = s.slots.set n t := rfl
@[simp] theorem finishSlot_segmem (opc : Byte) (n : Nat) (t : Slot) (r0 r1 : Word) (s : State) : (finishSlot opc n t r0 r1 s).segmem = s.segmem := rfl
@[simp] theorem finishSlot_inReset (opc : Byte) (n : Nat) (t : Slot) (r0 r1 : Word) (s : State) : (finishSlot opc n t r0 r1 s).inReset = s.inReset := rfl
@[simp] theorem finishSlot_resetCount (opc : Byte) (n : Nat) (t : Slot) (r0 r1 : Word) (s : State) : (finishSlot opc n t r0 r1 s).resetCount = s.resetCount := rfl
@[simp] theorem finishSlot_bus (opc : Byte) (n : Nat) (t : Slot) (r0 r1 : Word) (s : State) : (finishSlot opc n t r0 r1 s).bus = s.bus := rfl
@[simp] theorem finishSlot_reads (opc : Byte) (n : Nat) (t : Slot) (r0 r1 : Word) (s : State) : (finishSlot opc n t r0 r1 s).reads = s.reads := rfl

/-! ### segWriteWord -/

@[simp] theorem segWriteWord_cfg (k : Nat) (v : Word) (s : State) : (segWriteWord k v s).cfg = s.cfg := rfl
@[simp] theorem segWriteWord_opa (k : Nat) (v : Word) (s : State) : (segWriteWord k v s).opa = s.opa := rfl
@[simp] theorem segWriteWord_opb (k : Nat) (v : Word) (s : State) : (segWriteWord k v s).opb = s.opb := rfl
@[simp] theorem segWriteWord_res0 (k : Nat) (v : Word) (s : State) : (segWriteWord k v s).res0 = s.res0 := rfl
@[simp] theorem segWriteWord_res1 (k : Nat) (v : Word) (s : State) : (segWriteWord k v s).res1 = s.res1 := rfl
@[simp] theorem segWriteWord_statusCode (k : Nat) (v : Word) (s : State) : (segWriteWord k v s).statusCode = s.statusCode := rfl
@[simp] theorem segWriteWord_statusLastOpc (k : Nat) (v : Word) (s : State) : (segWriteWord k v s).statusLastOpc = s.statusLastOpc := rfl
@[simp] theorem segWriteWord_vlen (k : Nat) (v : Word) (s : State) : (segWriteWord k v s).vlen = s.vlen := rfl
@[simp] theorem segWriteWord_vctrl (k : Nat) (v : Word) (s : State) : (segWriteWord k v s).vctrl = s.vctrl := rfl
@[simp] theorem segWriteWord_srcAddr (k : Nat) (v : Word) (s : State) : (segWriteWord k v s).srcAddr = s.srcAddr := rfl
@[simp] theorem segWriteWord_dstAddr (k : Nat) (v : Word) (s : State) : (segWriteWord k v s).dstAddr = s.dstAddr := rfl
@[simp] theorem segWriteWord_flagRej0 (k : Nat) (v : Word) (s : State) : (segWriteWord k v s).flagRej0 = s.flagRej0 := rfl
@[simp] theorem segWriteWord_flagRej1 (k : Nat) (v : Word) (s : State) : (segWriteWord k v s).flagRej1 = s.flagRej1 := rfl
@[simp] theorem segWriteWord_wl (k : Nat) (v : Word) (s : State) : (segWriteWord k v s).wl = s.wl := rfl
@[simp] theorem segWriteWord_slots (k : Nat) (v : Word) (s : State) : (segWriteWord k v s).slots = s.slots := rfl
@[simp] theorem segWriteWord_segmem (k : Nat) (v : Word) (s : State) : (segWriteWord k v s).segmem = Memory.writeAll s.segmem (4 * k) (bytesOf v) := rfl
@[simp] theorem segWriteWord_inReset (k : Nat) (v : Word) (s : State) : (segWriteWord k v s).inReset = s.inReset := rfl
@[simp] theorem segWriteWord_resetCount (k : Nat) (v : Word) (s : State) : (segWriteWord k v s).resetCount = s.resetCount := rfl
@[simp] theorem segWriteWord_bus (k : Nat) (v : Word) (s : State) : (segWriteWord k v s).bus = s.bus := rfl
@[simp] theorem segWriteWord_reads (k : Nat) (v : Word) (s : State) : (segWriteWord k v s).reads = s.reads := rfl

/-! ### performRead -/

@[simp] theorem performRead_cfg (a : Offset) (s : State) : (performRead a s).cfg = s.cfg := rfl
@[simp] theorem performRead_opa (a : Offset) (s : State) : (performRead a s).opa = s.opa := rfl
@[simp] theorem performRead_opb (a : Offset) (s : State) : (performRead a s).opb = s.opb := rfl
@[simp] theorem performRead_res0 (a : Offset) (s : State) : (performRead a s).res0 = s.res0 := rfl
@[simp] theorem performRead_res1 (a : Offset) (s : State) : (performRead a s).res1 = s.res1 := rfl
@[simp] theorem performRead_statusCode (a : Offset) (s : State) : (performRead a s).statusCode = s.statusCode := rfl
@[simp] theorem performRead_statusLastOpc (a : Offset) (s : State) : (performRead a s).statusLastOpc = s.statusLastOpc := rfl
@[simp] theorem performRead_vlen (a : Offset) (s : State) : (performRead a s).vlen = s.vlen := rfl
@[simp] theorem performRead_vctrl (a : Offset) (s : State) : (performRead a s).vctrl = s.vctrl := rfl
@[simp] theorem performRead_srcAddr (a : Offset) (s : State) : (performRead a s).srcAddr = s.srcAddr := rfl
@[simp] theorem performRead_dstAddr (a : Offset) (s : State) : (performRead a s).dstAddr = s.dstAddr := rfl
@[simp] theorem performRead_flagRej0 (a : Offset) (s : State) : (performRead a s).flagRej0 = s.flagRej0 := rfl
@[simp] theorem performRead_flagRej1 (a : Offset) (s : State) : (performRead a s).flagRej1 = s.flagRej1 := rfl
@[simp] theorem performRead_wl (a : Offset) (s : State) : (performRead a s).wl = s.wl := rfl
@[simp] theorem performRead_slots (a : Offset) (s : State) : (performRead a s).slots = s.slots := rfl
@[simp] theorem performRead_segmem (a : Offset) (s : State) : (performRead a s).segmem = s.segmem := rfl
@[simp] theorem performRead_inReset (a : Offset) (s : State) : (performRead a s).inReset = s.inReset := rfl
@[simp] theorem performRead_resetCount (a : Offset) (s : State) : (performRead a s).resetCount = s.resetCount := rfl
@[simp] theorem performRead_bus (a : Offset) (s : State) : (performRead a s).bus = s.bus := rfl
@[simp] theorem performRead_reads (a : Offset) (s : State) : (performRead a s).reads = s.reads ++ [busRead a s] := rfl

/-! ### State.resetFor -/

@[simp] theorem State.resetFor_cfg (p : Params) : (State.resetFor p).cfg = p := rfl
@[simp] theorem State.resetFor_opa (p : Params) : (State.resetFor p).opa = 0 := rfl
@[simp] theorem State.resetFor_opb (p : Params) : (State.resetFor p).opb = 0 := rfl
@[simp] theorem State.resetFor_res0 (p : Params) : (State.resetFor p).res0 = 0 := rfl
@[simp] theorem State.resetFor_res1 (p : Params) : (State.resetFor p).res1 = 0 := rfl
@[simp] theorem State.resetFor_statusCode (p : Params) : (State.resetFor p).statusCode = 0 := rfl
@[simp] theorem State.resetFor_statusLastOpc (p : Params) : (State.resetFor p).statusLastOpc = 0 := rfl
@[simp] theorem State.resetFor_vlen (p : Params) : (State.resetFor p).vlen = 0 := rfl
@[simp] theorem State.resetFor_vctrl (p : Params) : (State.resetFor p).vctrl = { af := 0, dtype := 0, astate := 0, csumok := 0 } := rfl
@[simp] theorem State.resetFor_srcAddr (p : Params) : (State.resetFor p).srcAddr = Vector.replicate 4 0 := rfl
@[simp] theorem State.resetFor_dstAddr (p : Params) : (State.resetFor p).dstAddr = Vector.replicate 4 0 := rfl
@[simp] theorem State.resetFor_flagRej0 (p : Params) : (State.resetFor p).flagRej0 = 0xC8C8CBCB := rfl
@[simp] theorem State.resetFor_flagRej1 (p : Params) : (State.resetFor p).flagRej1 = 0xC8C8CBCB := rfl
@[simp] theorem State.resetFor_wl (p : Params) : (State.resetFor p).wl = List.replicate p.nFilt (Vector.replicate 8 0) := rfl
@[simp] theorem State.resetFor_slots (p : Params) : (State.resetFor p).slots = List.replicate p.nTrk Slot.free := rfl
@[simp] theorem State.resetFor_segmem (p : Params) : (State.resetFor p).segmem = [] := rfl
@[simp] theorem State.resetFor_inReset (p : Params) : (State.resetFor p).inReset = false := rfl
@[simp] theorem State.resetFor_resetCount (p : Params) : (State.resetFor p).resetCount = 0 := rfl
@[simp] theorem State.resetFor_bus (p : Params) : (State.resetFor p).bus = [] := rfl
@[simp] theorem State.resetFor_reads (p : Params) : (State.resetFor p).reads = [] := rfl

/-! ### releaseReset -/

@[simp] theorem releaseReset_cfg (s : State) : (releaseReset s).cfg = s.cfg := rfl
@[simp] theorem releaseReset_opa (s : State) : (releaseReset s).opa = 0 := rfl
@[simp] theorem releaseReset_opb (s : State) : (releaseReset s).opb = 0 := rfl
@[simp] theorem releaseReset_res0 (s : State) : (releaseReset s).res0 = 0 := rfl
@[simp] theorem releaseReset_res1 (s : State) : (releaseReset s).res1 = 0 := rfl
@[simp] theorem releaseReset_statusCode (s : State) : (releaseReset s).statusCode = 0 := rfl
@[simp] theorem releaseReset_statusLastOpc (s : State) : (releaseReset s).statusLastOpc = 0 := rfl
@[simp] theorem releaseReset_vlen (s : State) : (releaseReset s).vlen = 0 := rfl
@[simp] theorem releaseReset_vctrl (s : State) : (releaseReset s).vctrl = { af := 0, dtype := 0, astate := 0, csumok := 0 } := rfl
@[simp] theorem releaseReset_srcAddr (s : State) : (releaseReset s).srcAddr = Vector.replicate 4 0 := rfl
@[simp] theorem releaseReset_dstAddr (s : State) : (releaseReset s).dstAddr = Vector.replicate 4 0 := rfl
@[simp] theorem releaseReset_flagRej0 (s : State) : (releaseReset s).flagRej0 = 0xC8C8CBCB := rfl
@[simp] theorem releaseReset_flagRej1 (s : State) : (releaseReset s).flagRej1 = 0xC8C8CBCB := rfl
@[simp] theorem releaseReset_wl (s : State) : (releaseReset s).wl = List.replicate s.cfg.nFilt (Vector.replicate 8 0) := rfl
@[simp] theorem releaseReset_slots (s : State) : (releaseReset s).slots = List.replicate s.cfg.nTrk Slot.free := rfl
@[simp] theorem releaseReset_segmem (s : State) : (releaseReset s).segmem = [] := rfl
@[simp] theorem releaseReset_inReset (s : State) : (releaseReset s).inReset = false := rfl
@[simp] theorem releaseReset_resetCount (s : State) : (releaseReset s).resetCount = s.resetCount + 1 := rfl
@[simp] theorem releaseReset_bus (s : State) : (releaseReset s).bus = s.bus := rfl
@[simp] theorem releaseReset_reads (s : State) : (releaseReset s).reads = s.reads := rfl

/-! ### State.withStatus -/

@[simp] theorem State.withStatus_cfg (s : State) (code lastOpc : Byte) : (s.withStatus code lastOpc).cfg = s.cfg := rfl
@[simp] theorem State.withStatus_opa (s : State) (code lastOpc : Byte) : (s.withStatus code lastOpc).opa = s.opa := rfl
@[simp] theorem State.withStatus_opb (s : State) (code lastOpc : Byte) : (s.withStatus code lastOpc).opb = s.opb := rfl
@[simp] theorem State.withStatus_res0 (s : State) (code lastOpc : Byte) : (s.withStatus code lastOpc).res0 = s.res0 := rfl
@[simp] theorem State.withStatus_res1 (s : State) (code lastOpc : Byte) : (s.withStatus code lastOpc).res1 = s.res1 := rfl
@[simp] theorem State.withStatus_statusCode (s : State) (code lastOpc : Byte) : (s.withStatus code lastOpc).statusCode = code := rfl
@[simp] theorem State.withStatus_statusLastOpc (s : State) (code lastOpc : Byte) : (s.withStatus code lastOpc).statusLastOpc = lastOpc := rfl
@[simp] theorem State.withStatus_vlen (s : State) (code lastOpc : Byte) : (s.withStatus code lastOpc).vlen = s.vlen := rfl
@[simp] theorem State.withStatus_vctrl (s : State) (code lastOpc : Byte) : (s.withStatus code lastOpc).vctrl = s.vctrl := rfl
@[simp] theorem State.withStatus_srcAddr (s : State) (code lastOpc : Byte) : (s.withStatus code lastOpc).srcAddr = s.srcAddr := rfl
@[simp] theorem State.withStatus_dstAddr (s : State) (code lastOpc : Byte) : (s.withStatus code lastOpc).dstAddr = s.dstAddr := rfl
@[simp] theorem State.withStatus_flagRej0 (s : State) (code lastOpc : Byte) : (s.withStatus code lastOpc).flagRej0 = s.flagRej0 := rfl
@[simp] theorem State.withStatus_flagRej1 (s : State) (code lastOpc : Byte) : (s.withStatus code lastOpc).flagRej1 = s.flagRej1 := rfl
@[simp] theorem State.withStatus_wl (s : State) (code lastOpc : Byte) : (s.withStatus code lastOpc).wl = s.wl := rfl
@[simp] theorem State.withStatus_slots (s : State) (code lastOpc : Byte) : (s.withStatus code lastOpc).slots = s.slots := rfl
@[simp] theorem State.withStatus_segmem (s : State) (code lastOpc : Byte) : (s.withStatus code lastOpc).segmem = s.segmem := rfl
@[simp] theorem State.withStatus_inReset (s : State) (code lastOpc : Byte) : (s.withStatus code lastOpc).inReset = s.inReset := rfl
@[simp] theorem State.withStatus_resetCount (s : State) (code lastOpc : Byte) : (s.withStatus code lastOpc).resetCount = s.resetCount := rfl
@[simp] theorem State.withStatus_bus (s : State) (code lastOpc : Byte) : (s.withStatus code lastOpc).bus = s.bus := rfl
@[simp] theorem State.withStatus_reads (s : State) (code lastOpc : Byte) : (s.withStatus code lastOpc).reads = s.reads := rfl

end Sys2Proof.Machine
end

