-- ==== Sys2Proof/Laws/Ops.lean ====
section
/-! SUPPORT. For each shared operation, once, everything it can do. -/

namespace Sys2Proof.Machine

/-! ## Words -/

@[simp] theorem b2w_true : b2w true = 1 := rfl
@[simp] theorem b2w_false : b2w false = 0 := rfl

theorem minWord_toNat (a b : Word) : (minWord a b).toNat = min a.toNat b.toNat := by
  unfold minWord
  split
  next h => exact (Nat.min_eq_left (BitVec.le_def.1 h)).symm
  next h => exact (Nat.min_eq_right (by have := mt BitVec.le_def.2 h; omega)).symm

/-- A difference that does not borrow is the difference of the unsigned values. -/
theorem toNat_sub_of_le {a b : Word} (h : b ≤ a) : (a - b).toNat = a.toNat - b.toNat :=
  BitVec.toNat_sub_of_le h

/-! ## Slots -/

theorem State.slot_of_getElem? {s : State} {n : Nat} {t : Slot} (h : s.slots[n]? = some t) :
    s.slot n = t := by
  simp [State.slot, List.getD_eq_getElem?_getD, h]

/-- With no capacity the ring index is 0. -/
@[simp] theorem ringAdd_zero (h n : Word) : ringAdd 0 h n = 0 := rfl

/-- A ring index stays below the capacity. -/
theorem ringAdd_lt {cap : Word} (h n : Word) (hc : cap ≠ 0) : ringAdd cap h n < cap := by
  have hpos : 0 < cap.toNat := Nat.pos_of_ne_zero fun e => hc (BitVec.eq_of_toNat_eq (by simpa using e))
  simp only [ringAdd, hc, if_false, BitVec.lt_def, BitVec.toNat_umod]
  exact Nat.mod_lt _ hpos

@[simp] theorem freeFront_active (n : Word) (t : Slot) : (freeFront n t).active = t.active := rfl
@[simp] theorem freeFront_cap (n : Word) (t : Slot) : (freeFront n t).cap = t.cap := rfl
@[simp] theorem freeFront_used (n : Word) (t : Slot) : (freeFront n t).used = t.used - n := rfl
@[simp] theorem freeFront_send (n : Word) (t : Slot) : (freeFront n t).send = t.send - minWord n t.send := rfl
@[simp] theorem freeFront_curr (n : Word) (t : Slot) : (freeFront n t).curr = t.curr - minWord n t.curr := rfl
@[simp] theorem freeFront_una (n : Word) (t : Slot) : (freeFront n t).una = t.una + n := rfl
@[simp] theorem freeFront_nxt (n : Word) (t : Slot) :
    (freeFront n t).nxt = t.una + n + (t.send - minWord n t.send) := rfl
@[simp] theorem freeFront_start (n : Word) (t : Slot) : (freeFront n t).start = t.start + n := rfl
@[simp] theorem freeFront_head (n : Word) (t : Slot) : (freeFront n t).head = ringAdd t.cap t.head n := rfl

/-- The three ways through the common checks of an ABT command. -/
theorem withActiveSlot_cases {opc : Byte} {n : Nat} {s t : State} {k : Slot → State}
    (h : withActiveSlot opc n s k = t) :
    (s.cfg.nTrk ≤ n ∧ t = raiseErr .index opc s) ∨
    (n < s.cfg.nTrk ∧ (s.slot n).active = false ∧ t = raiseErr .state opc s) ∨
    (n < s.cfg.nTrk ∧ (s.slot n).active = true ∧ t = k (s.slot n)) := by
  unfold withActiveSlot at h
  split at h
  next hn => exact .inl ⟨hn, h.symm⟩
  next hn =>
    split at h
    next ha => exact .inr (.inl ⟨by omega, ha, h.symm⟩)
    next ha => exact .inr (.inr ⟨by omega, by simpa using ha, h.symm⟩)

theorem withActiveSlot_of_index {opc : Byte} {n : Nat} {s : State} (k : Slot → State)
    (h : s.cfg.nTrk ≤ n) : withActiveSlot opc n s k = raiseErr .index opc s := by
  simp [withActiveSlot, h]

theorem withActiveSlot_of_inactive {opc : Byte} {n : Nat} {s : State} (k : Slot → State)
    (h : n < s.cfg.nTrk) (ha : (s.slot n).active = false) :
    withActiveSlot opc n s k = raiseErr .state opc s := by
  simp [withActiveSlot, ha, Nat.not_le.2 h]

theorem withActiveSlot_of_active {opc : Byte} {n : Nat} {s : State} (k : Slot → State)
    (h : n < s.cfg.nTrk) (ha : (s.slot n).active = true) :
    withActiveSlot opc n s k = k (s.slot n) := by
  simp [withActiveSlot, ha, Nat.not_le.2 h]

/-! ## Segment memory -/

/-- A byte read depends on the listed bytes and, where none is listed, on the draw. -/
theorem segRead_of_lookup {s : State} {i : Nat} {b : Byte} (h : Memory.lookup s.segmem i = some b) :
    segRead s i = b := by
  simp [segRead, h]

/-- A window write leaves every byte outside its word as it was. -/
theorem segRead_segWriteWord_outside (k : Nat) (v : Word) (s : State) {i : Nat}
    (h : i < 4 * k ∨ 4 * k + 4 ≤ i) : segRead (segWriteWord k v s) i = segRead s i := by
  simp only [segRead, segWriteWord_segmem, unwrittenByte, segWriteWord_resetCount]
  rw [Memory.lookup_writeAll_outside _ _ _ _ (by simpa using h)]

/-- A window write puts the word's bytes in big-endian lanes. -/
theorem segRead_segWriteWord_inside (k : Nat) (v : Word) (s : State) {j : Nat} (h : j < 4) :
    segRead (segWriteWord k v s) (4 * k + j) = v.extractLsb' (24 - 8 * j) 8 := by
  apply segRead_of_lookup
  rw [segWriteWord_segmem, Memory.lookup_writeAll_inside _ _ _ _ (by simpa using h)]
  match j, h with
  | 0, _ => rfl
  | 1, _ => rfl
  | 2, _ => rfl
  | 3, _ => rfl

/-- A window write keeps the canonical form and the bound. -/
theorem segWriteWord_memory {k : Nat} {v : Word} {s : State} (hk : 4 * k + 4 ≤ s.cfg.segMax)
    (hw : Memory.wf s.segmem) (hb : Memory.within s.cfg.segMax s.segmem) :
    Memory.wf (segWriteWord k v s).segmem ∧ Memory.within s.cfg.segMax (segWriteWord k v s).segmem :=
  ⟨Memory.writeAll_wf _ _ hw, Memory.writeAll_within _ (by simpa using hk) hb⟩

/-- Reset lists no byte, which is the canonical form. -/
theorem State.resetFor_memory (p : Params) :
    Memory.wf (State.resetFor p).segmem ∧ Memory.within p.segMax (State.resetFor p).segmem := by
  simp

/-! ## Ending a command -/

/-- A command that ends in an error differs from its start in STATUS alone. -/
theorem raiseErr_eq_withStatus (e : ErrCode) (opc : Byte) (s : State) :
    raiseErr e opc s = s.withStatus (errCodeByte e) opc := rfl

/-! ## The checksum's fold -/

/-- One round of the checksum's fold. -/
theorem foldLoop_succ (fuel n : Nat) :
    foldLoop (fuel + 1) n = if n > 0xFFFF then foldLoop fuel (n % 65536 + n / 65536) else n := rfl

end Sys2Proof.Machine
end

