-- ==== Sys2Proof/Laws/Bus.lean ====
section
/-! SUPPORT. What one host event does, once for each kind, and reading an element of a register bank or whitelist
after one is written. -/

namespace Sys2Proof.Machine

/-- One word of a bank of words after word `i` of it is written. -/
theorem bank_get_set {n : Nat} (xs : Vector Word n) (i k : Fin n) (v : Word) :
    (xs.set i v).get k = if i = k then v else xs.get k := by
  have hget : ∀ ys : Vector Word n, ys.get k = ys[k.val] := fun _ => rfl
  rw [hget, hget, Vector.getElem_set]
  simp only [Fin.ext_iff]

/-- While reset is released, a write to any place but CMD is that place's store. -/
theorem perform_write {a : Offset} {v : Word} {s : State} (h : s.inReset = false) (hc : locate a ≠ .cmd) :
    perform (.write a v) s = .next (writeLocation v s (locate a)) := by
  simp [perform, h, performWrite, hc]

/-- While reset is released, a write to CMD runs the word. -/
theorem perform_write_cmd {a : Offset} {v : Word} {s : State} (h : s.inReset = false) (hc : locate a = .cmd) :
    perform (.write a v) s = runCommand v s := by
  simp [perform, h, performWrite, hc]

/-- While reset is released, a read appends the word read to the host's list. -/
theorem perform_read {a : Offset} {s : State} (h : s.inReset = false) :
    perform (.read a) s = .next (performRead a s) := by
  simp [perform, h]

/-- The word of the SEGMEM window reads back as written. -/
theorem segReadWord_segWriteWord (k : Nat) (v : Word) (s : State) : segReadWord (segWriteWord k v s) k = v := by
  have inside := @segRead_segWriteWord_inside k v s
  have h0 : segRead (segWriteWord k v s) (4 * k) = v.extractLsb' 24 8 := inside (j := 0) (by omega)
  simp only [segReadWord, h0, inside (j := 1) (by omega), inside (j := 2) (by omega), inside (j := 3) (by omega)]
  apply BitVec.eq_of_getLsbD_eq
  intro i hi
  simp only [BitVec.getLsbD_append, BitVec.getLsbD_extractLsb']
  interval_cases i <;> simp

end Sys2Proof.Machine
end

