-- ==== Sys2Proof/Laws/PerInstr.lean ====
section
/-! SUPPORT. Facts about every command as syntax, one lemma per constructor. -/

namespace Sys2Proof.Laws

/-- The fields of `{RSV, IDX, OPC}`. -/
theorem encode_fields (n : Nat) (o : Byte) :
    opcField (0#16 ++ BitVec.ofNat 8 n ++ o) = o ∧ rsvField (0#16 ++ BitVec.ofNat 8 n ++ o) = 0 ∧
      (n < 256 → idxField (0#16 ++ BitVec.ofNat 8 n ++ o) = n) := by
  refine ⟨?_, ?_, fun h => ?_⟩
  · ext i hi
    simp only [opcField, BitVec.getElem_extractLsb', Nat.zero_add, BitVec.getLsbD_append]
    simp [hi]
  · ext i hi
    simp only [rsvField, BitVec.getElem_extractLsb', BitVec.getLsbD_append]
    simp [show ¬ 16 + i < 8 by omega, show ¬ 16 + i - 8 < 8 by omega]
  · have : (0#16 ++ BitVec.ofNat 8 n ++ o).extractLsb' 8 8 = BitVec.ofNat 8 n := by
      ext i hi
      simp only [BitVec.getElem_extractLsb', BitVec.getLsbD_append]
      simp [hi]
    simp only [idxField, this, BitVec.toNat_ofNat]
    omega

/-- The word of a command holds the command's OPC and IDX, and RSV = 0 (30_encoding.md R70). -/
def EncodeFields.Statement (i : Instr) : Prop :=
  opcField (encode i) = i.opc ∧ rsvField (encode i) = 0 ∧ (i.wellFormed = true → idxField (encode i) = i.index)

theorem EncodeFields.nop : EncodeFields.Statement .nop := by
  unfold EncodeFields.Statement; decide
theorem EncodeFields.slt : EncodeFields.Statement .slt := by
  unfold EncodeFields.Statement; decide
theorem EncodeFields.sle : EncodeFields.Statement .sle := by
  unfold EncodeFields.Statement; decide
theorem EncodeFields.sdist : EncodeFields.Statement .sdist := by
  unfold EncodeFields.Statement; decide
theorem EncodeFields.tinit (idx : Nat) : EncodeFields.Statement (.tinit idx) :=
  ⟨(encode_fields idx _).1, (encode_fields idx _).2.1, fun h => (encode_fields idx _).2.2 (of_decide_eq_true h)⟩
theorem EncodeFields.trel (idx : Nat) : EncodeFields.Statement (.trel idx) :=
  ⟨(encode_fields idx _).1, (encode_fields idx _).2.1, fun h => (encode_fields idx _).2.2 (of_decide_eq_true h)⟩
theorem EncodeFields.tqueue (idx : Nat) : EncodeFields.Statement (.tqueue idx) :=
  ⟨(encode_fields idx _).1, (encode_fields idx _).2.1, fun h => (encode_fields idx _).2.2 (of_decide_eq_true h)⟩
theorem EncodeFields.tmark (idx : Nat) : EncodeFields.Statement (.tmark idx) :=
  ⟨(encode_fields idx _).1, (encode_fields idx _).2.1, fun h => (encode_fields idx _).2.2 (of_decide_eq_true h)⟩
theorem EncodeFields.tfree (idx : Nat) : EncodeFields.Statement (.tfree idx) :=
  ⟨(encode_fields idx _).1, (encode_fields idx _).2.1, fun h => (encode_fields idx _).2.2 (of_decide_eq_true h)⟩
theorem EncodeFields.tack (idx : Nat) : EncodeFields.Statement (.tack idx) :=
  ⟨(encode_fields idx _).1, (encode_fields idx _).2.1, fun h => (encode_fields idx _).2.2 (of_decide_eq_true h)⟩
theorem EncodeFields.trtx (idx : Nat) : EncodeFields.Statement (.trtx idx) :=
  ⟨(encode_fields idx _).1, (encode_fields idx _).2.1, fun h => (encode_fields idx _).2.2 (of_decide_eq_true h)⟩
theorem EncodeFields.trmark (idx : Nat) : EncodeFields.Statement (.trmark idx) :=
  ⟨(encode_fields idx _).1, (encode_fields idx _).2.1, fun h => (encode_fields idx _).2.2 (of_decide_eq_true h)⟩
theorem EncodeFields.vseg : EncodeFields.Statement .vseg := by
  unfold EncodeFields.Statement; decide
theorem EncodeFields.vopt (idx : Nat) : EncodeFields.Statement (.vopt idx) :=
  ⟨(encode_fields idx _).1, (encode_fields idx _).2.1, fun h => (encode_fields idx _).2.2 (of_decide_eq_true h)⟩

end Sys2Proof.Laws
end

