-- ==== Sys2Proof/Laws/Sval.lean ====
section
/-! SUPPORT. What the shared checks and one round of the option scan can do. -/

namespace Sys2Proof.Machine

/-- The three outcomes of the length and data-offset checks. -/
theorem lengthChecks_cases (s : State) :
    (s.vlen.toNat < 20 ∧ lengthChecks s = some .short) ∨
    (20 ≤ s.vlen.toNat ∧ ((segDoff s).toNat < 5 ∨ s.vlen.toNat < headerLength s) ∧
      lengthChecks s = some .doff) ∨
    (20 ≤ s.vlen.toNat ∧ 5 ≤ (segDoff s).toNat ∧ headerLength s ≤ s.vlen.toNat ∧
      lengthChecks s = none) := by
  unfold lengthChecks
  split
  · exact .inl ⟨‹_›, rfl⟩
  · split
    · exact .inr (.inl ⟨by omega, ‹_›, rfl⟩)
    · exact .inr (.inr ⟨by omega, by omega, by omega, rfl⟩)

/-- Past the end of the options area the scan accepts. -/
theorem optScan_past (s : State) (f stop fuel i : Nat) (mss : Option (BitVec 16)) (h : stop ≤ i) :
    optScan s f stop fuel i mss = (.accept, mssReport mss) := by
  cases fuel with
  | zero => rfl
  | succ fuel => simp [optScan, h]

/-- One round of the option scan. -/
theorem optScan_succ (s : State) (f stop fuel i : Nat) (mss : Option (BitVec 16)) :
    optScan s f stop (fuel + 1) i mss =
      if stop ≤ i then (.accept, mssReport mss)
      else if segRead s i = 0 then (.accept, mssReport mss)
      else if segRead s i = 1 then optScan s f stop fuel (i + 1) mss
      else if segRead s i ≠ 2 ∧ whitelisted s f (segRead s i) = false then (.optForb, 0)
      else if stop ≤ i + 1 then (.optMal, 0)
      else if (segRead s (i + 1)).toNat < 2 ∨ stop < i + (segRead s (i + 1)).toNat then (.optMal, 0)
      else if segRead s i = 2 then
        if (segRead s (i + 1)).toNat ≠ 4 then (.optMal, 0)
        else optScan s f stop fuel (i + (segRead s (i + 1)).toNat)
          (some (mss.getD (segRead s (i + 2) ++ segRead s (i + 3))))
      else optScan s f stop fuel (i + (segRead s (i + 1)).toNat) mss := rfl

end Sys2Proof.Machine
end

