-- ==== Sys2Proof/Tests/Slice0.lean ====
section
/-! SUPPORT. The model's own tests, each expected value from the spec (the vector or rule is named), and for each
statement with hypotheses a state that meets them. -/

namespace Sys2Proof.Tests

open Sys2Proof Sys2Proof.Machine

/-! ## Helpers -/

/-- A result is a next state with property `p`. -/
def ends (r : Result) (p : State → Bool) : Bool :=
  match r with
  | .next t => p t
  | .fault _ => false
  | .refused _ => false

/-- The reset state with slot 0 as given, and OPA and OPB. -/
def withSlot (t : Slot) (opa opb : Word) : State :=
  { State.reset with slots := [t, Slot.free, Slot.free, Slot.free], opa := opa, opb := opb }

/-- An active slot {CAP, USED, SEND, CURR, UNA, NXT, START, HEAD}, as 95_test_vectors.md section 0 writes it. -/
def slotOf (cap used send curr una nxt start head : Word) : Slot :=
  { active := true, cap, used, send, curr, una, nxt, start, head }

/-- A successful end: RES0, RES1, STATUS and slot 0. -/
def okWith (r : Result) (r0 r1 status : Word) (t : Slot) : Bool :=
  ends r fun u => u.res0 == r0 && u.res1 == r1 && statusWord u == status && u.slot 0 == t

/-- The slot of V-ABT-24: 500 bytes queued, 200 sent, 150 of them in the round. -/
def busySlot : Slot := slotOf 4096 500 200 150 1000 1200 0 0

/-- The first 14 bytes of EX (95_test_vectors.md V-SVAL-01) with the given bytes 12 and 13, then its last 6. -/
def headerBytes (b12 b13 : Byte) : List Byte :=
  [0x04, 0xD2, 0x00, 0x50, 0x00, 0x00, 0x03, 0xE8, 0x00, 0x00, 0x00, 0x00, b12, b13, 0xFF, 0xFF, 0x25, 0x85, 0x00,
    0x00]

/-- A state about to run VSEG or VOPT on the given bytes. -/
def withSegment (bytes : List Byte) (vlen : Word) (vctrl : Word) : State :=
  { State.reset with
    segmem := Memory.writeAll [] 0 bytes, vlen := vlen, vctrl := vctrlOfWord vctrl
    srcAddr := #v[0xC0A80001, 0, 0, 0], dstAddr := #v[0xC0A80002, 0, 0, 0] }

/-- EX, ready for VSEG (V-SVAL-02). -/
def exState : State := withSegment (headerBytes 0x50 0x02) 20 0x10

/-- EX with data offset 6 and the MSS option of V-SVAL-28. -/
def mssState : State := withSegment (headerBytes 0x60 0x02 ++ [0x02, 0x04, 0x05, 0xB4]) 24 0x10

/-! ## WellFormed refuses what has no encoding (30_encoding.md R72, 00_scope.md R9) -/

theorem test_index_above_255_not_wellFormed :
    ([.tinit 256, .trel 256, .tqueue 256, .tmark 256, .tfree 256, .tack 256, .trtx 256, .trmark 256,
      .vopt 256] : List Instr).all (fun i => !i.wellFormed) = true := by decide

theorem test_index_255_wellFormed :
    ([.nop, .slt, .sle, .sdist, .tinit 255, .trel 255, .tqueue 255, .tmark 255, .tfree 255, .tack 255, .trtx 255,
      .trmark 255, .vseg, .vopt 255] : List Instr).all Instr.wellFormed = true := by decide

theorem test_vcfg_legal : Params.vcfg.Legal := by decide
theorem test_no_slots_illegal : ¬({ Params.vcfg with nTrk := 0 } : Params).Legal := by decide
theorem test_257_slots_illegal : ¬({ Params.vcfg with nTrk := 257 } : Params).Legal := by decide
theorem test_no_filters_illegal : ¬({ Params.vcfg with nFilt := 0 } : Params).Legal := by decide
theorem test_257_filters_illegal : ¬({ Params.vcfg with nFilt := 257 } : Params).Legal := by decide
theorem test_capacity_0_illegal : ¬({ Params.vcfg with capMax := 0 } : Params).Legal := by decide
theorem test_capacity_2_pow_31_illegal : ¬({ Params.vcfg with capMax := 2147483648 } : Params).Legal := by decide
theorem test_segment_56_illegal : ¬({ Params.vcfg with segMax := 56 } : Params).Legal := by decide
theorem test_segment_65536_illegal : ¬({ Params.vcfg with segMax := 65536 } : Params).Legal := by decide
theorem test_segment_62_illegal : ¬({ Params.vcfg with segMax := 62 } : Params).Legal := by decide

/-! ## Decoding words written out from 30_encoding.md R70 and R75: RSV 0, IDX in [15:8], OPC in [7:0] -/

theorem test_decode_nop : decode 0x00000000 = .command .nop := by decide
theorem test_decode_slt : decode 0x00000010 = .command .slt := by decide
theorem test_decode_sle : decode 0x00000011 = .command .sle := by decide
theorem test_decode_sdist : decode 0x00000012 = .command .sdist := by decide
theorem test_decode_tinit : decode 0x0000FF20 = .command (.tinit 255) := by decide
theorem test_decode_trel : decode 0x00000321 = .command (.trel 3) := by decide
theorem test_decode_tqueue : decode 0x00000122 = .command (.tqueue 1) := by decide
theorem test_decode_tmark : decode 0x00008023 = .command (.tmark 128) := by decide
theorem test_decode_tfree : decode 0x00000024 = .command (.tfree 0) := by decide
theorem test_decode_tack : decode 0x00000325 = .command (.tack 3) := by decide
theorem test_decode_trtx : decode 0x00000226 = .command (.trtx 2) := by decide
theorem test_decode_trmark : decode 0x00000727 = .command (.trmark 7) := by decide
theorem test_decode_vseg : decode 0x00000030 = .command .vseg := by decide
theorem test_decode_vopt : decode 0x00000131 = .command (.vopt 1) := by decide

/-- V-ENC-08, V-ENC-09, V-ENC-22 and the edges of the unassigned ranges. -/
theorem test_decode_illegal :
    decode 0x80000012 = .illegal .reservedNotZero ∧ decode 0x00000130 = .illegal .indexNotZero ∧
    decode 0x00010025 = .illegal .reservedNotZero ∧ decode 0x00000001 = .illegal .unassignedOpc ∧
    decode 0x0000000F = .illegal .unassignedOpc ∧ decode 0x00000013 = .illegal .unassignedOpc ∧
    decode 0x0000001F = .illegal .unassignedOpc ∧ decode 0x00000028 = .illegal .unassignedOpc ∧
    decode 0x0000032F = .illegal .unassignedOpc ∧ decode 0x00000032 = .illegal .unassignedOpc ∧
    decode 0xFFFFFFFF = .illegal .unassignedOpc := by decide

/-! ## One step of each command -/

/-- V-CTL-01. -/
theorem test_nop_keeps_results :
    okWith (exec .nop { State.reset with res0 := 2, statusCode := 5 }) 2 0 0x00000000 Slot.free = true := by decide

/-- V-SEQ-05, V-SEQ-14. -/
theorem test_slt_wraps :
    okWith (exec .slt (withSlot Slot.free 0xFFFFFFFF 0)) 1 0 0x00001000 Slot.free = true ∧
    okWith (exec .slt (withSlot Slot.free 0 0x80000001)) 0 0 0x00001000 Slot.free = true := by decide

/-- V-SEQ-10, in both forms. -/
theorem test_slt_antipode :
    okWith (exec .slt (withSlot Slot.free 0 0x80000000)) 0 0 0x00001000 Slot.free = true ∧
    okWith (exec .slt { withSlot Slot.free 0 0x80000000 with cfg := { Params.vcfg with seqForm := .aMinusBNeg } })
      1 0 0x00001000 Slot.free = true := by decide

/-- V-SEQ-02, V-SEQ-16. -/
theorem test_sle_equal :
    okWith (exec .sle (withSlot Slot.free 5 5)) 1 0 0x00001100 Slot.free = true ∧
    okWith (exec .sle (withSlot Slot.free 0x12345678 0x12345677)) 0 0 0x00001100 Slot.free = true := by decide

/-- V-SEQ-06. -/
theorem test_sdist_wraps :
    okWith (exec .sdist (withSlot Slot.free 0xFFFFFFF0 0x10)) 0x20 0 0x00001200 Slot.free = true := by decide

/-- V-ABT-03. -/
theorem test_tinit_capacity_max :
    okWith (exec (.tinit 0) (withSlot Slot.free 7 65536)) 65536 0 0x00002000 (slotOf 65536 0 0 0 7 7 0 0) = true := by
  decide

/-- V-ABT-08: the slot's state is checked before the capacity. -/
theorem test_tinit_active_slot :
    okWith (exec (.tinit 0) (withSlot (slotOf 100 0 0 0 0 0 0 0) 7 70000)) 0 0 0x00002003
      (slotOf 100 0 0 0 0 0 0 0) = true := by decide

/-- V-ABT-09. -/
theorem test_trel_reports_counts :
    okWith (exec (.trel 0) (withSlot (slotOf 4096 500 300 100 1000 1300 0 0) 0 0)) 500 300 0x00002100
      Slot.free = true := by decide

/-- V-ABT-13. -/
theorem test_tqueue_truncates :
    okWith (exec (.tqueue 0) (withSlot (slotOf 4096 100 0 0 1000 1000 0 0) 0xFFFFFFFF 0)) 3996 0 0x00002200
      (slotOf 4096 4096 0 0 1000 1000 0 0) = true := by decide

/-- V-ABT-19. -/
theorem test_tmark_next_wraps :
    okWith (exec (.tmark 0) (withSlot (slotOf 4096 512 0 0 0xFFFFFF00 0xFFFFFF00 0 0) 0x200 0)) 256 0 0x00002300
      (slotOf 4096 512 512 512 0xFFFFFF00 256 0 0) = true := by decide

/-- V-ABT-17. -/
theorem test_tmark_too_many :
    okWith (exec (.tmark 0) (withSlot (slotOf 4096 500 200 200 1000 1200 0 0) 301 0)) 0 0 0x00002305
      (slotOf 4096 500 200 200 1000 1200 0 0) = true := by decide

/-- V-ABT-21. -/
theorem test_tfree_head_wraps :
    okWith (exec (.tfree 0) (withSlot (slotOf 8 4 4 4 100 104 6 6) 3 0)) 3 7 0x00002400
      (slotOf 8 1 1 1 103 104 9 1) = true := by decide

/-- V-ABT-22. -/
theorem test_tfree_beyond_send :
    okWith (exec (.tfree 0) (withSlot busySlot 350 0)) 350 3946 0x00002400
      (slotOf 4096 150 0 0 1350 1350 350 350) = true := by decide

/-- V-ABT-36. -/
theorem test_tack_new :
    okWith (exec (.tack 0) (withSlot (slotOf 4096 500 500 100 1000 1500 4000 4000) 1200 0)) 1 200 0x00002500
      (slotOf 4096 300 300 0 1200 1500 4200 104) = true := by decide

/-- V-ABT-32, V-ABT-33. -/
theorem test_tack_antipode_and_past_it :
    okWith (exec (.tack 0) (withSlot (slotOf 4096 500 500 500 1000 1500 0 0) 0x800003E8 0)) 3 0 0x00002500
      (slotOf 4096 500 500 500 1000 1500 0 0) = true ∧
    okWith (exec (.tack 0) (withSlot (slotOf 4096 500 500 500 1000 1500 0 0) 0x800003E9 0)) 2 0 0x00002500
      (slotOf 4096 500 500 500 1000 1500 0 0) = true := by decide

/-- V-ABT-38. -/
theorem test_trtx_restarts_round :
    okWith (exec (.trtx 0) (withSlot (slotOf 4096 200 200 200 1300 1500 300 300) 0 0)) 200 1300 0x00002600
      (slotOf 4096 200 200 0 1300 1500 300 300) = true := by decide

/-- V-ABT-42, V-ABT-43. -/
theorem test_trmark_completes_round :
    okWith (exec (.trmark 0) (withSlot (slotOf 4096 200 200 150 1300 1500 300 300) 50 0)) 200 0 0x00002700
      (slotOf 4096 200 200 200 1300 1500 300 300) = true ∧
    okWith (exec (.trmark 0) (withSlot (slotOf 4096 200 200 150 1300 1500 300 300) 51 0)) 0 0 0x00002705
      (slotOf 4096 200 200 150 1300 1500 300 300) = true := by decide

/-- V-SVAL-02. -/
theorem test_vseg_accepts : okWith (exec .vseg exState) 0 0x00000502 0x00003000 Slot.free = true := by
  decide +kernel

/-- V-SVAL-13: byte 16 is 0x26. -/
theorem test_vseg_damaged_checksum :
    okWith (exec .vseg { exState with segmem := Memory.write exState.segmem 16 0x26 }) 5 0 0x00003000 Slot.free =
      true := by decide +kernel

/-- V-SVAL-28. -/
theorem test_vopt_reports_mss : okWith (exec (.vopt 0) mssState) 0 0x000105B4 0x00003100 Slot.free = true := by
  decide +kernel

/-- V-SVAL-40 and V-SVAL-41: kind 8 forbidden by filter 0; accepted by filter 1, with length 1 malformed. -/
theorem test_vopt_forbidden_and_malformed :
    let s := { withSegment (headerBytes 0x60 0x02 ++ [0x08, 0x01, 0x00, 0x00]) 24 0x10 with
      wl := [Vector.replicate 8 0, #v[0x100, 0, 0, 0, 0, 0, 0, 0]] }
    okWith (exec (.vopt 0) s) 8 0 0x00003100 Slot.free = true ∧
    okWith (exec (.vopt 1) s) 7 0 0x00003100 Slot.free = true := by decide +kernel

/-- V-MEM-07, V-MEM-10: VCTRL keeps bits [6:0]; SEGMEM's byte 0 is bits [31:24]. -/
theorem test_bus_write_then_read :
    ends (perform (.write 0x00028 0xFFFFFFFF) State.reset) (fun t => busRead 0x00028 t == 0x0000007F) = true ∧
    ends (perform (.write 0x10000 0x04D20050) State.reset)
      (fun t => busRead 0x10000 t == 0x04D20050 && segRead t 1 == 0xD2) = true := by decide

/-- An illegal word through the bus (V-ENC-22). -/
theorem test_bus_illegal_word :
    okWith (perform (.write 0x00010 0x00010025) State.reset) 0 0 0x00002501 Slot.free = true := by decide

/-- V-MEM-01 to V-MEM-03. -/
theorem test_bus_constants :
    busRead 0x00000 State.reset = 0x53455131 ∧ busRead 0x00004 State.reset = 0x01030400 ∧
    busRead 0x00008 State.reset = 0x00010000 := by decide

/-- V-ENC-23 through the bus: the step after placing the word runs it. -/
theorem test_step_runs_placed_word :
    okWith (step (State.reset.withFetchWord 32 0x00000020)) 0 0 0x00002000 (slotOf 0 0 0 0 0 0 0 0) = true := by
  decide

/-! ## Witnesses: for each statement, in its order, states and operands that meet its hypotheses -/

theorem witness_round_trip : (Instr.tinit 255).wellFormed = true ∧ Instr.nop.wellFormed = true := by decide

theorem witness_decoded_word : decode 0x0000FF20 = .command (.tinit 255) := by decide

theorem witness_illegal_words :
    State.reset.inReset = false ∧ decode 0x00010010 = .illegal .reservedNotZero ∧
    [0x01, 0x0F, 0x13, 0x1F, 0x28, 0x2F, 0x32, 0xFF].map (fun w => opcField (BitVec.ofNat 32 w)) =
      [0x01, 0x0F, 0x13, 0x1F, 0x28, 0x2F, 0x32, 0xFF] := by decide

theorem witness_step_runs_command :
    let s := { State.reset with bus := [.write 0x00010 0x00000020] }
    s.inReset = false ∧ s.bus = .write 0x00010 0x00000020 :: [] ∧ decode 0x00000020 = .command (.tinit 0) := by decide

theorem witness_fetch_word : (Instr.vopt 255).wellFormed = true := by decide

theorem witness_step_events :
    State.reset.bus = [] ∧ ({ State.reset with bus := [.read 0] } : State).bus = .read 0 :: [] := by decide

theorem witness_access_completes : State.reset.inReset = false := by decide

theorem witness_access_refused :
    step { State.reset with inReset := true, bus := [.read 0] } = .refused .accessDuringReset := rfl

theorem witness_slt : State.reset.cfg.seqForm = .bMinusAPos := by decide

/-- The one legal word of an opcode has illegal neighbours: IDX 1, RSV 1. -/
theorem witness_only_legal_word :
    opcField 0x00000110 = 0x10 ∧ (0x00000110 : Word) ≠ 0x00000010 ∧ opcField 0x00010030 = 0x30 ∧
    (0x00010030 : Word) ≠ 0x00000030 := by decide

theorem witness_sle : State.reset.cfg.seqForm = .bMinusAPos ∧ opcField 0x00000111 = 0x11 ∧ (0x00000111 : Word) ≠ 0x11 := by
  decide

theorem witness_antipode : (0x80000000 : Word) - 0 = 0x80000000 ∧ (0x7FFFFFFF : Word) - 0 ≠ 0x80000000 := by decide

theorem witness_antipode_other_commands : ∃ t, exec (.tack 0) State.reset = .next t := ⟨_, rfl⟩

/-- At the edges of a half circle. -/
theorem witness_order_laws :
    let o : Word := 0xFFFFFFFF
    let a : Word := 0xFFFFFFFF
    let b : Word := 0
    let c : Word := 0x7FFFFFFE
    (a - o).toNat < 2 ^ 31 ∧ (b - o).toNat < 2 ^ 31 ∧ (c - o).toNat < 2 ^ 31 ∧ isLower a b = true ∧
      isLower b c = true := by decide

theorem witness_tracker_checks :
    (0x20 ≤ (Instr.tinit 4).opc.toNat ∧ (Instr.tinit 4).opc.toNat ≤ 0x27) ∧ State.reset.cfg.nTrk ≤ 4 ∧
    3 < State.reset.cfg.nTrk ∧ State.reset.slots[3]? = some Slot.free ∧
    Slot.free.active = (if (Instr.trmark 3).opc = 0x20 then true else false) ∧
    (withSlot busySlot 0 0).slots[0]? = some busySlot ∧
    busySlot.active = (if (Instr.tinit 0).opc = 0x20 then true else false) := by decide

/-- Index 4 of 4 slots; a busy slot; capacities one past and at CAP_MAX. -/
theorem witness_tinit :
    State.reset.cfg.nTrk ≤ 4 ∧ (withSlot busySlot 0 0).slots[0]? = some busySlot ∧ busySlot.active = true ∧
    (withSlot Slot.free 7 65537).slots[0]? = some Slot.free ∧ Slot.free.active = false ∧
    (withSlot Slot.free 7 65537).cfg.capMax < (65537 : Word).toNat ∧
    (65536 : Word).toNat ≤ (withSlot Slot.free 7 65536).cfg.capMax := by decide

/-- For TREL, TRTX and the first clauses of the others: a busy slot and a free one. -/
theorem witness_trel_trtx :
    4 ≤ State.reset.cfg.nTrk ∧ State.reset.cfg.nTrk ≤ 4 ∧ 0 < (withSlot busySlot 0 0).cfg.nTrk ∧
    (withSlot busySlot 0 0).slots[0]? = some busySlot ∧ busySlot.active = true ∧
    (withSlot busySlot 0 0).slots[1]? = some Slot.free ∧ Slot.free.active = false := by decide

/-- An offer above the free space, and the count accepted. -/
theorem witness_tqueue :
    (withSlot busySlot 0xFFFFFFFF 0).slots[0]? = some busySlot ∧ busySlot.active = true ∧
    (3596 : Word).toNat = min (0xFFFFFFFF : Word).toNat (busySlot.cap - busySlot.used).toNat := by decide

/-- One byte too many, and as many as are unsent. -/
theorem witness_tmark :
    (withSlot busySlot 301 0).slots[0]? = some busySlot ∧ busySlot.active = true ∧
    (busySlot.used - busySlot.send).toNat < (301 : Word).toNat ∧
    (300 : Word).toNat ≤ (busySlot.used - busySlot.send).toNat := by decide

/-- Within SEND, at SEND, and beyond it. -/
theorem witness_free_front :
    (500 : Word).toNat ≤ busySlot.used.toNat ∧ (200 : Word).toNat = min (500 : Word).toNat busySlot.send.toNat ∧
    (150 : Word).toNat = min (500 : Word).toNat busySlot.curr.toNat ∧ (200 : Word).toNat ≤ busySlot.send.toNat ∧
    busySlot.nxt = busySlot.una + busySlot.send ∧ busySlot.send.toNat < (201 : Word).toNat := by decide

theorem witness_tfree :
    (withSlot busySlot 501 0).slots[0]? = some busySlot ∧ busySlot.active = true ∧
    busySlot.used.toNat < (501 : Word).toNat ∧ (500 : Word).toNat ≤ busySlot.used.toNat := by decide

theorem witness_ack_antipode : (0x800003E8 : Word) - busySlot.una = 0x80000000 := by decide

/-- NEW at NXT, DUP at UNA, FUTURE past NXT. -/
theorem witness_tack :
    (withSlot busySlot 1200 0).slots[0]? = some busySlot ∧ busySlot.active = true ∧
    isLower busySlot.una 1200 = true ∧ isLowerOrEqual 1200 busySlot.nxt = true ∧
    ¬(isLower busySlot.una 1000 = true ∧ isLowerOrEqual 1000 busySlot.nxt = true) ∧
    isLowerOrEqual 1000 busySlot.una = true ∧
    ¬(isLower busySlot.una 1201 = true ∧ isLowerOrEqual 1201 busySlot.nxt = true) ∧
    isLowerOrEqual 1201 busySlot.una = false := by decide

theorem witness_new_ack :
    let s := withSlot busySlot 1200 0
    s.cfg.Legal ∧ 0 < s.cfg.nTrk ∧ s.slots[0]? = some busySlot ∧ busySlot.active = true ∧
      busySlot.Inv s.cfg.capMax ∧ isLower busySlot.una s.opa = true ∧ isLowerOrEqual s.opa busySlot.nxt = true := by
  decide

/-- One byte too many, and as many as the round has left. -/
theorem witness_trmark :
    (withSlot busySlot 51 0).slots[0]? = some busySlot ∧ busySlot.active = true ∧
    (busySlot.send - busySlot.curr).toNat < (51 : Word).toNat ∧
    (50 : Word).toNat ≤ (busySlot.send - busySlot.curr).toNat := by decide

theorem witness_after_reset :
    State.reset.cfg.Legal ∧ State.reset.slots = (State.resetFor State.reset.cfg).slots ∧
    0x21 ≤ (Instr.trel 0).opc.toNat ∧ (Instr.trmark 4).opc.toNat ≤ 0x27 ∧ 3 < State.reset.cfg.nTrk ∧
    State.reset.opb.toNat ≤ State.reset.cfg.capMax := by decide

/-- An even string, and a sum at and one past the limit of the fold. -/
theorem witness_checksum :
    ([0x01, 0x02] : List Byte).length = 2 * 1 ∧ (0xFFFF : Nat) ≤ 0xFFFF ∧ 0xFFFF < (0x10000 : Nat) := by decide

theorem witness_checksummed :
    exState.vctrl.af = 0 ∧ (withSegment [] 1 0x11).vctrl.af = 1 ∧ (withSegment [] 1 0x11).vlen.toNat % 2 = 1 := by
  decide

/-- Each way VSEG ends: too long, address state, type, short, offset, checksum, flags, accept. -/
theorem witness_vseg :
    exState.cfg.segMax < (1025 : Word).toNat ∧ exState.vlen.toNat ≤ exState.cfg.segMax ∧
    ¬(State.reset.vctrl.astate = 2 ∨ State.reset.vctrl.astate = 4) ∧
    (exState.vctrl.astate = 2 ∨ exState.vctrl.astate = 4) ∧ (vctrlOfWord 0x12).dtype ≠ 0 ∧
    exState.vctrl.dtype = 0 ∧ (19 : Word).toNat < 20 ∧ 20 ≤ exState.vlen.toNat ∧
    ((headerBytes 0x40 0x02).getD 12 0).extractLsb' 4 4 = 4#4 ∧ 5 ≤ ((segRead exState 12).extractLsb' 4 4).toNat ∧
    4 * ((segRead exState 12).extractLsb' 4 4).toNat ≤ exState.vlen.toNat := by decide +kernel

theorem witness_vseg_checksum :
    exState.vctrl.csumok = 0 ∧ csumOk (checksummed exState) = true ∧
    csumOk (checksummed { exState with segmem := Memory.write exState.segmem 16 0x26 }) = false ∧
    (vctrlOfWord 0x50).csumok = 1 ∧
    (exState.flagRej1 ++ exState.flagRej0).getLsbD ((segRead exState 13).extractLsb' 0 6).toNat = false ∧
    (exState.flagRej1 ++ exState.flagRej0).getLsbD (3#6).toNat = true := by decide +kernel

/-- The scan at its end and one byte before it, and a header with options. -/
theorem witness_option_scan :
    (24 : Nat) ≤ 24 ∧ 23 < (24 : Nat) ∧
    (let stop := 4 * ((segRead mssState 12).extractLsb' 4 4).toNat
     0 < mssState.cfg.nFilt ∧ mssState.vlen.toNat ≤ mssState.cfg.segMax ∧ 20 ≤ stop ∧ stop ≤ mssState.vlen.toNat) := by
  decide +kernel

theorem witness_vopt :
    opcField 0x00010031 = 0x31 ∧ rsvField 0x00010031 ≠ 0 ∧ mssState.cfg.nFilt ≤ 2 ∧ 1 < mssState.cfg.nFilt ∧
    mssState.cfg.segMax < (1025 : Word).toNat ∧ mssState.vlen.toNat ≤ mssState.cfg.segMax ∧ (19 : Word).toNat < 20 ∧
    20 ≤ mssState.vlen.toNat ∧ (23 : Word).toNat < 4 * ((segRead mssState 12).extractLsb' 4 4).toNat ∧
    5 ≤ ((segRead mssState 12).extractLsb' 4 4).toNat ∧
    4 * ((segRead mssState 12).extractLsb' 4 4).toNat ≤ mssState.vlen.toNat := by decide +kernel

/-- A whitelist that differs in the bits of kinds 0, 1 and 2. -/
theorem witness_vopt_known_kinds :
    (∀ k : Byte, 3 ≤ k.toNat →
      whitelisted { mssState with wl := [#v[7, 0, 0, 0, 0, 0, 0, 0]] } 0 k = whitelisted mssState 0 k) ∧
    ∃ t, exec (.vopt 0) mssState = .next t := ⟨by decide +kernel, _, rfl⟩

/-- SEGMEM with one byte more, at VLEN; a VLEN below 20; and the end of the header. -/
theorem witness_sval_reads :
    (∃ t, exec .vseg exState = .next t) ∧
    (∀ j < exState.vlen.toNat,
      segRead { exState with segmem := Memory.write exState.segmem 20 0xEE, resetCount := 0 } j = segRead exState j) ∧
    State.reset.vlen.toNat < 20 ∧
    (let stop := 4 * ((segRead mssState 12).extractLsb' 4 4).toNat
     20 ≤ stop ∧ stop ≤ mssState.vlen.toNat ∧
      ∀ j < stop,
        segRead { mssState with segmem := Memory.write mssState.segmem 24 0xEE, resetCount := 0 } j =
          segRead mssState j) := ⟨⟨_, rfl⟩, by decide +kernel, by decide, by decide +kernel⟩

/-- Two states with the same inputs and different results and counts of resets. -/
theorem witness_sval_stateless :
    let s := exState
    let s' := { exState with res0 := 9, opa := 7 }
    (Instr.vseg = .vseg ∨ ∃ f, Instr.vseg = .vopt f) ∧ s'.cfg = s.cfg ∧ s'.vlen = s.vlen ∧ s'.vctrl = s.vctrl ∧
      s'.srcAddr = s.srcAddr ∧ s'.dstAddr = s.dstAddr ∧ s'.flagRej0 = s.flagRej0 ∧ s'.flagRej1 = s.flagRej1 ∧
      s'.wl = s.wl ∧ (∀ j, segRead s' j = segRead s j) ∧ (∃ t, exec .vseg s = .next t) ∧
      (∃ t, exec .vseg s' = .next t) :=
  ⟨.inl rfl, rfl, rfl, rfl, rfl, rfl, rfl, rfl, rfl, fun _ => rfl, ⟨_, rfl⟩, ⟨_, rfl⟩⟩

theorem witness_errors :
    ∃ t u, exec (.trel 4) State.reset = .next t ∧ t.statusCode ≠ 0x00 ∧ runCommand 0x00000110 State.reset = .next u ∧
      u.statusCode ≠ 0x00 := ⟨_, _, rfl, by decide, rfl, by decide⟩

theorem witness_status_command : ∃ t, perform (.write 0x00010 0xFFFFFFFF) State.reset = .next t := ⟨_, rfl⟩

/-- A read, and a write to another place than CMD. -/
theorem witness_other_events :
    (∃ t, perform (.write 0x00014 1) State.reset = .next t) ∧ locate 0x00014 ≠ .cmd ∧
    (∃ t, perform (.read 0x0000C) State.reset = .next t) ∧
    ∀ level, BusEvent.read 0x0000C ≠ .resetInput level ∧ BusEvent.write 0x00014 1 ≠ .resetInput level :=
  ⟨⟨_, rfl⟩, by decide, ⟨_, rfl⟩, by decide⟩

theorem witness_commands_keep_inputs : ∃ t, exec (.vopt 0) mssState = .next t := ⟨_, rfl⟩

/-- The slot window's first and last offsets, its last slot, and a command on slot 3 beside slot 2. -/
theorem witness_slots_change :
    0x04000 ≤ (0x04000 : Offset).toNat ∧ (0x07FFF : Offset).toNat < 0x08000 ∧ 3 < State.reset.cfg.nTrk ∧
    State.reset.slots[3]? = some Slot.free ∧ (2 : Nat) ≠ (Instr.tinit 3).index ∧ Instr.vseg.opc.toNat > 0x27 ∧
    Instr.sdist.opc.toNat < 0x20 := by decide

theorem witness_slots_change_next : ∃ t, exec (.tinit 3) State.reset = .next t := ⟨_, rfl⟩

theorem witness_step_next :
    (∃ t, step { State.reset with bus := [.write 0x00010 0x00000020] } = .next t) ∧
    (∃ t, step { State.reset with inReset := true, bus := [.resetInput false] } = .next t) := ⟨⟨_, rfl⟩, ⟨_, rfl⟩⟩

theorem witness_reserved_offsets :
    (0x00058 : Offset).toNat < 0x02000 ∧ 0x00058 ≤ (0x00058 : Offset).toNat ∧ (0x0FFFF : Offset).toNat < 0x10000 ∧
    0x08000 ≤ (0x08000 : Offset).toNat := by decide

theorem witness_read_back :
    State.reset.inReset = false ∧ (2 : Fin 4) ≠ 3 ∧ 1 < 256 ∧ 1 < State.reset.cfg.nFilt ∧
    State.reset.wl.length = State.reset.cfg.nFilt ∧ 255 < 16384 ∧ 4 * 255 < State.reset.cfg.segMax := by decide

/-- The registers beside CMD, and neighbouring words of SEGMEM. -/
theorem witness_other_place :
    State.reset.inReset = false ∧ locate 0x00014 ≠ .cmd ∧ locate 0x00018 ≠ locate 0x00014 ∧
    locate 0x10000 ≠ .cmd ∧ locate 0x10004 ≠ locate 0x10000 := by decide

/-- One offset for each kind of reserved or read-only place. -/
theorem witness_reserved_places :
    State.reset.inReset = false ∧ locate 0x0002C = .reserved ∧ locate 0x04100 = .slotWord 4 0 ∧
    State.reset.cfg.nTrk ≤ 4 ∧ locate 0x0402C = .slotWord 0 11 ∧ locate 0x02040 = .wlWord 2 0 ∧
    State.reset.cfg.nFilt ≤ 2 ∧ locate 0x10400 = .segWord 256 ∧ State.reset.cfg.segMax ≤ 4 * 256 ∧
    locate 0x0001C = .res0 := by decide

theorem witness_configuration : State.reset.cfg.Legal ∧ State.reset.inReset = false := by decide

theorem witness_whitelist_window :
    255 < 256 ∧ State.reset.inReset = false ∧ 1 < State.reset.cfg.nFilt ∧
    State.reset.wl.length = State.reset.cfg.nFilt ∧ State.reset.cfg.nFilt ≤ 2 := by decide

theorem witness_slot_window :
    3 < 256 ∧ 3 < State.reset.cfg.nTrk ∧ State.reset.slots[3]? = some Slot.free ∧ (63 : Nat) < 64 ∧
    State.reset.inReset = false := by decide

theorem witness_segmem_window :
    16383 < 16384 ∧ State.reset.inReset = false ∧ 4 * 255 < State.reset.cfg.segMax ∧
    State.reset.cfg.segMax ≤ 4 * 256 ∧ State.reset.cfg.Legal ∧ (4 * 255 - 1 < 4 * 255 ∨ 4 * 255 + 4 ≤ 4 * 256) := by
  decide

theorem witness_in_reset :
    ({ State.reset with inReset := true } : State).inReset = true ∧ State.reset.inReset = false ∧ (State.resetFor State.reset.cfg).slots[3]? =
      some Slot.free := by decide

/-- The legal configurations at the ends of their ranges have a reset state with the invariant. -/
theorem witness_reset_invariant :
    ({ nTrk := 1, nFilt := 1, capMax := 1, segMax := 60, seqForm := .bMinusAPos } : Params).Legal ∧
    ({ nTrk := 256, nFilt := 256, capMax := 2147483647, segMax := 65532, seqForm := .aMinusBNeg } : Params).Legal := by
  decide

/-- A state in use has the invariant, and steps. -/
theorem witness_step_invariant :
    let s := { withSlot busySlot 1200 0 with bus := [.write 0x00010 0x00000025] }
    s.Inv ∧ ∃ t, step s = .next t := ⟨by decide, _, rfl⟩

theorem witness_run :
    let s := { withSlot busySlot 1200 0 with bus := [.write 0x00010 0x00000025, .write 0x00010 0x00000026] }
    s.Inv ∧ (∃ t, core.run 2 s = .next t) ∧ busySlot ∈ s.slots := ⟨by decide, ⟨_, rfl⟩, by decide⟩

theorem witness_expansions : (255 : Nat) < 256 ∧ readsOpb (.tinit 255) = true := by decide

end Sys2Proof.Tests
end

section
/-! SUPPORT. The address map (20_memory.md R51 to R55) as arithmetic on offsets, and the fields of packed words. -/

namespace Sys2Proof.Machine

/-! ## Places -/

/-- Clearing address bits [1:0] rounds the offset down to a multiple of 4. -/
theorem wordOffset_eq (a : Offset) : wordOffset a = 4 * (a.toNat / 4) := by
  have hmask : a &&& (0x1FFFC : Offset) = (a >>> 2) <<< 2 := by
    apply BitVec.eq_of_getLsbD_eq
    intro i hi
    interval_cases i <;> simp
  have hlt := a.isLt
  rw [wordOffset, hmask, BitVec.toNat_shiftLeft, BitVec.toNat_ushiftRight, Nat.shiftRight_eq_div_pow,
    Nat.shiftLeft_eq]
  omega

theorem locate_cfg0 : locate 0x00004 = .cfg0 := rfl
theorem locate_cfg1 : locate 0x00008 = .cfg1 := rfl
theorem locate_status : locate 0x0000C = .status := rfl
theorem locate_cmd : locate 0x00010 = .cmd := rfl

/-- The slot window (20_memory.md R54): which slot and which of its words an offset within it names. -/
theorem locate_slotWindow {a : Offset} (hlo : 0x04000 ≤ a.toNat) (hhi : a.toNat < 0x08000) :
    locate a = .slotWord ((a.toNat - 0x04000) / 64) (Fin.ofNat 16 ((a.toNat - 0x04000) % 64 / 4)) := by
  have hslot : (4 * (a.toNat / 4) - 0x04000) / 64 = (a.toNat - 0x04000) / 64 := by omega
  have hword : (4 * (a.toNat / 4) - 0x04000) % 64 / 4 = (a.toNat - 0x04000) % 64 / 4 := by omega
  simp only [locate, wordOffset_eq]
  rw [if_neg (by omega), if_neg (by omega), if_pos (by omega), hslot, hword]

/-- The offset of word `j` of slot `n` names that word. -/
theorem locate_slotWord {n : Nat} (hn : n < 256) (j : Fin 16) :
    locate (BitVec.ofNat 17 (0x04000 + 64 * n + 4 * j.val)) = .slotWord n j := by
  have hj := j.isLt
  have ha : (BitVec.ofNat 17 (0x04000 + 64 * n + 4 * j.val)).toNat = 0x04000 + 64 * n + 4 * j.val := by
    rw [BitVec.toNat_ofNat]; omega
  rw [locate_slotWindow (by omega) (by omega), ha]
  congr 1
  · omega
  · apply Fin.ext
    simp only [Fin.ofNat]
    omega

/-! ## Stores -/

/-- A host write stores in no place that commands alone write, and leaves the configuration and the host's side. -/
theorem writeLocation_frame (v : Word) (s : State) (l : Location) :
    (writeLocation v s l).cfg = s.cfg ∧ (writeLocation v s l).res0 = s.res0 ∧
    (writeLocation v s l).res1 = s.res1 ∧ (writeLocation v s l).statusCode = s.statusCode ∧
    (writeLocation v s l).statusLastOpc = s.statusLastOpc ∧ (writeLocation v s l).slots = s.slots ∧
    (writeLocation v s l).inReset = s.inReset ∧ (writeLocation v s l).resetCount = s.resetCount ∧
    (writeLocation v s l).bus = s.bus ∧ (writeLocation v s l).reads = s.reads := by
  cases l with
  | wlWord f j => simp only [writeLocation]; split <;> simp
  | segWord k => simp only [writeLocation]; split <;> simp
  | _ => simp [writeLocation]

/-- A write to a place other than CMD, given the place its offset names. -/
theorem perform_write_at {a : Offset} {v : Word} {s : State} {l : Location} (h : s.inReset = false)
    (hl : locate a = l) (hc : l ≠ .cmd) : perform (.write a v) s = .next (writeLocation v s l) := by
  subst hl
  exact perform_write h hc

/-- An access that completes was made outside reset (70_reset_and_hazards.md R195). -/
theorem inReset_of_perform_access {e : BusEvent} {s t : State} (h : perform e s = .next t)
    (hreset : ∀ level, e ≠ .resetInput level) : s.inReset = false := by
  cases hr : s.inReset with
  | false => rfl
  | true =>
    cases e with
    | resetInput level => exact absurd rfl (hreset level)
    | write a v => simp [perform, hr] at h
    | read a => simp [perform, hr] at h

/-- What a completed access other than a CMD write is: a read, or a store at a place other than CMD. -/
theorem perform_access_cases {e : BusEvent} {s t : State} (h : perform e s = .next t)
    (hcmd : ∀ a v, e = .write a v → locate a ≠ .cmd) (hreset : ∀ level, e ≠ .resetInput level) :
    (∃ a, t = performRead a s) ∨ (∃ a v, t = writeLocation v s (locate a)) := by
  have hr := inReset_of_perform_access h hreset
  cases e with
  | resetInput level => exact absurd rfl (hreset level)
  | write a v =>
    rw [perform_write hr (hcmd a v rfl)] at h
    injection h with ht
    exact .inr ⟨a, v, ht.symm⟩
  | read a =>
    rw [perform_read hr] at h
    injection h with ht
    exact .inl ⟨a, ht.symm⟩

/-! ## Fields of a packed word -/

/-- The fields of a word made of three fields. -/
theorem extractLsb'_append_three {l m n : Nat} (a : BitVec l) (b : BitVec m) (c : BitVec n) :
    (a ++ b ++ c).extractLsb' 0 n = c ∧ (a ++ b ++ c).extractLsb' n m = b ∧
      (a ++ b ++ c).extractLsb' (n + m) l = a := by
  refine ⟨BitVec.extractLsb'_append_eq_right, ?_, ?_⟩
  · rw [BitVec.extractLsb'_append_eq_of_le le_rfl, Nat.sub_self, BitVec.extractLsb'_append_eq_right]
  · rw [BitVec.extractLsb'_append_eq_of_le (Nat.le_add_right n m), Nat.add_sub_cancel_left,
      BitVec.extractLsb'_append_eq_left]

end Sys2Proof.Machine
end

section
/-! SUPPORT. The operation code of a decoded word, and everything a command can do to the state. -/

namespace Sys2Proof.Machine

/-! ## Decoding -/

/-- Every row of the opcode map fixes all of OPC, to the operation code of the command it builds. -/
theorem opcodeMap_fixes_opc :
    ∀ r ∈ opcodeMap, opcField r.mask = BitVec.allOnes 8 ∧ ∀ n, opcField r.pattern = (r.build n).opc := by
  simp only [opcodeMap, List.forall_mem_cons, List.not_mem_nil, false_implies, implies_true, and_true]
  refine ⟨?_, ?_, ?_, ?_, ?_, ?_, ?_, ?_, ?_, ?_, ?_, ?_, ?_, ?_⟩ <;> exact ⟨by decide, fun _ => rfl⟩

/-- A word that decodes to a command matches the row that builds it. -/
theorem exists_row_of_decode {w : Word} {i : Instr} (h : decode w = .command i) :
    ∃ r ∈ opcodeMap, w &&& r.mask = r.pattern ∧ i = r.build (idxField w) := by
  unfold decode at h
  split at h
  next r hfind =>
    injection h with hi
    have hcovers := List.find?_some hfind
    exact ⟨r, List.mem_of_find?_eq_some hfind, by simpa [Row.covers] using hcovers, hi.symm⟩
  next => cases h

/-- The low byte of a command's word is the command's operation code (30_encoding.md R70). -/
theorem opcField_of_decode {w : Word} {i : Instr} (h : decode w = .command i) : opcField w = i.opc := by
  obtain ⟨r, hr, hw, rfl⟩ := exists_row_of_decode h
  obtain ⟨hmask, hopc⟩ := opcodeMap_fixes_opc r hr
  calc opcField w = opcField w &&& opcField r.mask := by rw [hmask, BitVec.and_allOnes]
    _ = opcField (w &&& r.mask) := BitVec.extractLsb'_and.symm
    _ = (r.build (idxField w)).opc := by rw [hw, hopc]

/-! ## What a command does -/

/-- The commands of the ABT unit (42_acktracker.md). -/
def isTracker : Instr → Bool
  | .tinit _ | .trel _ | .tqueue _ | .tmark _ | .tfree _ | .tack _ | .trtx _ | .trmark _ => true
  | _ => false

/-- The ABT commands are those with an OPC from 0x20 to 0x27 (30_encoding.md R75). -/
theorem isTracker_iff_opc (i : Instr) :
    isTracker i = true ↔ 0x20 ≤ i.opc.toNat ∧ i.opc.toNat ≤ 0x27 := by
  cases i <;> simp [isTracker, Instr.opc]

/-- The ways a command can end (60_exceptions.md R178, R179, 43_control.md R170). -/
inductive CommandOutcome (i : Instr) (s : State) : State → Prop
  /-- In an error, which writes STATUS only. -/
  | error (e : ErrCode) : CommandOutcome i s (raiseErr e i.opc s)
  /-- As NOP, the one success that leaves the results. -/
  | statusOnly : i = .nop → CommandOutcome i s (setStatus 0x00 i.opc s)
  /-- In success, with the results written. -/
  | results (r0 r1 : Word) : CommandOutcome i s (finish i.opc r0 r1 s)
  /-- In success, as an ABT command that writes the slot it names and the results. -/
  | slot (u : Slot) (r0 r1 : Word) :
      isTracker i = true → CommandOutcome i s (finishSlot i.opc i.index u r0 r1 s)

/-- A check before the rest of a command: both branches end in one of the ways a command can. -/
theorem CommandOutcome.ite {i : Instr} {s t u : State} {c : Prop} [Decidable c] (ht : CommandOutcome i s t)
    (hu : CommandOutcome i s u) : CommandOutcome i s (if c then t else u) := by
  split
  · exact ht
  · exact hu

/-- Past the checks of an ABT command, its outcome is that of the rest of the command. -/
theorem withActiveSlot_outcome {i : Instr} {n : Nat} {s : State} {k : Slot → State}
    (hk : ∀ u, CommandOutcome i s (k u)) : CommandOutcome i s (withActiveSlot i.opc n s k) := by
  obtain ⟨-, h⟩ | ⟨-, -, h⟩ | ⟨-, -, h⟩ := withActiveSlot_cases (opc := i.opc) (n := n) (s := s) (k := k) rfl
  · exact h ▸ .error .index
  · exact h ▸ .error .state
  · exact h ▸ hk _

/-- Every command completes, in one of the ways of `CommandOutcome`. -/
theorem exists_exec_outcome (i : Instr) (s : State) : ∃ t, exec i s = .next t ∧ CommandOutcome i s t := by
  cases i with
  | nop => exact ⟨_, rfl, .statusOnly rfl⟩
  | slt => exact ⟨_, rfl, .results _ _⟩
  | sle => exact ⟨_, rfl, .results _ _⟩
  | sdist => exact ⟨_, rfl, .results _ _⟩
  | tinit n =>
    exact ⟨_, rfl, .ite (.error .index) (.ite (.error .state) (.ite (.error .arg) (.slot _ _ _ rfl)))⟩
  | trel n => exact ⟨_, rfl, withActiveSlot_outcome fun _ => .slot _ _ _ rfl⟩
  | tqueue n => exact ⟨_, rfl, withActiveSlot_outcome fun _ => .slot _ _ _ rfl⟩
  | tmark n => exact ⟨_, rfl, withActiveSlot_outcome fun _ => .ite (.error .precond) (.slot _ _ _ rfl)⟩
  | tfree n => exact ⟨_, rfl, withActiveSlot_outcome fun _ => .ite (.error .precond) (.slot _ _ _ rfl)⟩
  | tack n =>
    refine ⟨_, rfl, withActiveSlot_outcome fun u => ?_⟩
    cases ackClass u s.opa with
    | new => exact .slot _ _ _ rfl
    | dup => exact .results _ _
    | future => exact .results _ _
  | trtx n => exact ⟨_, rfl, withActiveSlot_outcome fun _ => .slot _ _ _ rfl⟩
  | trmark n => exact ⟨_, rfl, withActiveSlot_outcome fun _ => .ite (.error .precond) (.slot _ _ _ rfl)⟩
  | vseg => exact ⟨_, rfl, .ite (.error .arg) (.results _ _)⟩
  | vopt f => exact ⟨_, rfl, .ite (.error .index) (.ite (.error .arg) (.results _ _))⟩

/-- The inversion of `exec`: a next state is one of the ways the command can end. -/
theorem exec_outcome {i : Instr} {s t : State} (h : exec i s = .next t) : CommandOutcome i s t := by
  obtain ⟨t', ht', houtcome⟩ := exists_exec_outcome i s
  rw [ht'] at h
  injection h with htt
  exact htt ▸ houtcome

/-- The numbers of the error codes stop at ERR_PRECOND, 5 (10_state.md R26). -/
theorem errCodeByte_le_five (e : ErrCode) : (errCodeByte e).toNat ≤ 5 := by
  cases e <;> decide

/-- Every command writes both fields of STATUS (10_state.md R26). -/
theorem CommandOutcome.status_written {i : Instr} {s t : State} (h : CommandOutcome i s t) :
    t.statusLastOpc = i.opc ∧ t.statusCode.toNat ≤ 5 := by
  cases h with
  | error e => exact ⟨rfl, errCodeByte_le_five e⟩
  | statusOnly _ => exact ⟨rfl, Nat.zero_le 5⟩
  | results r0 r1 => exact ⟨rfl, Nat.zero_le 5⟩
  | slot u r0 r1 _ => exact ⟨rfl, Nat.zero_le 5⟩

/-- A command writes no slot, unless it is an ABT command and names that slot (10_state.md R35). -/
theorem CommandOutcome.slot_unchanged {i : Instr} {s t : State} {n : Nat} (h : CommandOutcome i s t)
    (hn : isTracker i = true → n ≠ i.index) : t.slots[n]? = s.slots[n]? := by
  cases h with
  | error e => rfl
  | statusOnly _ => rfl
  | results r0 r1 => rfl
  | slot u r0 r1 htracker => simpa using List.getElem?_set_ne (hn htracker).symm

/-- A CMD write that completes writes the word's low byte to LASTOPC and a produced code to CODE, legal word or not
(30_encoding.md R77). -/
theorem runCommand_status_written {w : Word} {s t : State} (h : runCommand w s = .next t) :
    t.statusLastOpc = opcField w ∧ t.statusCode.toNat ≤ 5 := by
  unfold runCommand at h
  split at h
  next i hdecode =>
    rw [opcField_of_decode hdecode]
    exact (exec_outcome h).status_written
  next =>
    injection h with ht
    subst ht
    exact ⟨rfl, errCodeByte_le_five .opcode⟩

end Sys2Proof.Machine
end

section
/-! The statements of the family of 10_state.md. -/

namespace Sys2Proof.Machine

/-- Settles O40, from what a CMD write writes to STATUS and what every other access leaves. -/
theorem statusRegisterFields : Obligations.StatusRegisterFields := by
  refine ⟨fun s => ?fields, fun p => ⟨rfl, rfl⟩, fun w s t h => ?command, fun e s t h hcmd hreset => ?access,
    fun v s hr => ?write⟩
  case fields =>
    obtain ⟨hcode, hopc, hzero⟩ := extractLsb'_append_three 0#16 s.statusLastOpc s.statusCode
    exact ⟨hcode, hopc, hzero⟩
  case command =>
    rw [perform_write_cmd (inReset_of_perform_access h nofun) locate_cmd] at h
    exact runCommand_status_written h
  case access =>
    obtain ⟨a, rfl⟩ | ⟨a, v, rfl⟩ := perform_access_cases h hcmd hreset
    · exact ⟨rfl, rfl⟩
    · obtain ⟨-, -, -, hcode, hopc, -⟩ := writeLocation_frame v s (locate a)
      exact ⟨hcode, hopc⟩
  case write => exact perform_write_at hr locate_status nofun

/-- Settles O42, from the arithmetic of the slot window and the ways a command can end. -/
theorem onlyTrackerCommandsChangeSlots : Obligations.OnlyTrackerCommandsChangeSlots := by
  refine ⟨fun n j t s hn htrk hslot => ?window, fun a v s hr hlo hhi => ?write, fun i s t n h hother => ?command,
    fun e s t h hcmd hreset => ?access⟩
  case window =>
    rw [busRead, locate_slotWord hn, readLocation, if_pos htrk, State.slot_of_getElem? hslot]
  case write => exact perform_write_at hr (locate_slotWindow hlo hhi) nofun
  case command =>
    refine (exec_outcome h).slot_unchanged fun htracker => ?_
    obtain ⟨hlo, hhi⟩ := (isTracker_iff_opc i).1 htracker
    obtain hlt | hgt | hne := hother
    · omega
    · omega
    · exact hne
  case access =>
    obtain ⟨a, rfl⟩ | ⟨a, v, rfl⟩ := perform_access_cases h hcmd hreset
    · rfl
    · obtain ⟨-, -, -, -, -, hslots, -⟩ := writeLocation_frame v s (locate a)
      exact hslots

/-- Settles O51: within the legal ranges (00_scope.md R9) every parameter fits its field. -/
theorem configurationRegisters : Obligations.ConfigurationRegisters := by
  rintro s ⟨⟨-, htrk⟩, ⟨-, hfilt⟩, ⟨-, hcap⟩, -, hseg, -⟩
  obtain ⟨hsegField, htrkField, hfiltField⟩ := extractLsb'_append_three
    (BitVec.ofNat 8 (s.cfg.nFilt - 1)) (BitVec.ofNat 8 (s.cfg.nTrk - 1)) (BitVec.ofNat 16 s.cfg.segMax)
  have hcfg0 : busRead 0x00004 s = cfg0Word s.cfg := rfl
  have hcfg1 : busRead 0x00008 s = BitVec.ofNat 32 s.cfg.capMax := rfl
  rw [hcfg0, hcfg1, cfg0Word]
  refine ⟨?segMax, ?nTrk, ?nFilt, ?capMax, fun v hr => ⟨?write0, ?write1⟩⟩
  case segMax => rw [hsegField, BitVec.toNat_ofNat, Nat.mod_eq_of_lt (by omega)]
  case nTrk => rw [htrkField, BitVec.toNat_ofNat, Nat.mod_eq_of_lt (by omega)]
  case nFilt => rw [hfiltField, BitVec.toNat_ofNat, Nat.mod_eq_of_lt (by omega)]
  case capMax => rw [BitVec.toNat_ofNat, Nat.mod_eq_of_lt (by omega)]
  case write0 => exact perform_write_at hr locate_cfg0 nofun
  case write1 => exact perform_write_at hr locate_cfg1 nofun

end Sys2Proof.Machine
end

section
/-! SUPPORT. The windows of the address map (20_memory.md R53, R56), what an access at a named place gives, and the
whitelist after a write to one of its words. -/

namespace Sys2Proof.Machine

/-! ## Places -/

/-- Address bits [1:0] choose no place (20_memory.md R51). -/
theorem locate_clearLowBits (a : Offset) : locate (a &&& 0x1FFFC) = locate a := by
  have hoffset : wordOffset (a &&& 0x1FFFC) = wordOffset a := by
    rw [wordOffset, wordOffset, BitVec.and_assoc, BitVec.and_self]
  rw [locate, locate, hoffset]

/-- The offset of word `j` of whitelist `f` names that word (20_memory.md R53). -/
theorem locate_wlWord {f : Nat} (hf : f < 256) (j : Fin 8) :
    locate (BitVec.ofNat 17 (0x02000 + 32 * f + 4 * j.val)) = .wlWord f j := by
  have hj := j.isLt
  have hoffset : wordOffset (BitVec.ofNat 17 (0x02000 + 32 * f + 4 * j.val)) = 0x02000 + 32 * f + 4 * j.val := by
    rw [wordOffset_eq, BitVec.toNat_ofNat]; omega
  simp only [locate, hoffset]
  rw [if_neg (by omega), if_pos (by omega)]
  congr 1
  · omega
  · apply Fin.ext
    simp only [Fin.ofNat]
    omega

/-- The offset of word `k` of the SEGMEM window names that word (20_memory.md R56). -/
theorem locate_segWord {k : Nat} (hk : k < 16384) :
    locate (BitVec.ofNat 17 (0x10000 + 4 * k)) = .segWord k := by
  have hoffset : wordOffset (BitVec.ofNat 17 (0x10000 + 4 * k)) = 0x10000 + 4 * k := by
    rw [wordOffset_eq, BitVec.toNat_ofNat]; omega
  simp only [locate, hoffset]
  rw [if_neg (by omega), if_neg (by omega), if_neg (by omega), if_neg (by omega)]
  congr 1
  omega

/-! ## Accesses -/

/-- A read at an offset, given the place it names. -/
theorem busRead_at {a : Offset} {l : Location} (hl : locate a = l) (s : State) :
    busRead a s = readLocation s l := by
  rw [busRead, hl]

/-- A write acts through the place its offset names and through nothing else of the offset. -/
theorem perform_write_congr {a b : Offset} (h : locate a = locate b) (v : Word) (s : State) :
    perform (.write a v) s = perform (.write b v) s := by
  simp only [perform, performWrite, h]

/-- A CMD write always gives a next state (60_exceptions.md R175). -/
theorem exists_runCommand_next (w : Word) (s : State) : ∃ t, runCommand w s = .next t := by
  unfold runCommand
  split
  next i _ =>
    obtain ⟨t, ht, -⟩ := exists_exec_outcome i s
    exact ⟨t, ht⟩
  next => exact ⟨_, rfl⟩

/-- Outside reset every write gives a next state. -/
theorem exists_perform_write_next (a : Offset) (v : Word) {s : State} (hr : s.inReset = false) :
    ∃ t, perform (.write a v) s = .next t := by
  by_cases hc : locate a = .cmd
  · rw [perform_write_cmd hr hc]
    exact exists_runCommand_next v s
  · exact ⟨_, perform_write hr hc⟩

/-- What the two accesses give at a place that reads 0 and stores nothing (20_memory.md R58). -/
theorem perform_at_inert {a : Offset} {v : Word} {s : State} {l : Location} (hr : s.inReset = false)
    (hl : locate a = l) (hc : l ≠ .cmd) (hread : readLocation s l = 0) (hwrite : writeLocation v s l = s) :
    perform (.read a) s = .next { s with reads := s.reads ++ [0x00000000] } ∧
      perform (.write a v) s = .next s := by
  constructor
  · rw [perform_read hr, performRead, busRead_at hl, hread]
  · rw [perform_write_at hr hl hc, hwrite]

/-! ## What places read and store -/

/-- The last five words of a slot's window read 0 (20_memory.md R55). -/
theorem slotWindowWord_reserved (t : Slot) {j : Fin 16} (hj : 11 ≤ j.val) : slotWindowWord t j = 0 := by
  obtain ⟨j, hlt⟩ := j
  interval_cases j <;> rfl

theorem readLocation_slotWord_of_ge {s : State} {n : Nat} (j : Fin 16) (h : s.cfg.nTrk ≤ n) :
    readLocation s (.slotWord n j) = 0 := if_neg (Nat.not_lt.2 h)

theorem readLocation_slotWord_reserved (s : State) (n : Nat) {j : Fin 16} (hj : 11 ≤ j.val) :
    readLocation s (.slotWord n j) = 0 := by
  rw [readLocation, slotWindowWord_reserved _ hj, ite_self]

theorem readLocation_wlWord_of_ge {s : State} {f : Nat} (j : Fin 8) (h : s.cfg.nFilt ≤ f) :
    readLocation s (.wlWord f j) = 0 := if_neg (Nat.not_lt.2 h)

theorem writeLocation_wlWord_of_ge {s : State} {f : Nat} (j : Fin 8) (v : Word) (h : s.cfg.nFilt ≤ f) :
    writeLocation v s (.wlWord f j) = s := if_neg (Nat.not_lt.2 h)

theorem readLocation_wlWord_of_lt {s : State} {f : Nat} (j : Fin 8) (h : f < s.cfg.nFilt) :
    readLocation s (.wlWord f j) = (s.whitelist f).get j := if_pos h

theorem writeLocation_wlWord_of_lt {s : State} {f : Nat} (j : Fin 8) (v : Word) (h : f < s.cfg.nFilt) :
    writeLocation v s (.wlWord f j) = { s with wl := s.wl.set f ((s.whitelist f).set j v) } := if_pos h

theorem readLocation_segWord_of_ge {s : State} {k : Nat} (h : s.cfg.segMax ≤ 4 * k) :
    readLocation s (.segWord k) = 0 := if_neg (Nat.not_lt.2 h)

theorem writeLocation_segWord_of_ge {s : State} {k : Nat} (v : Word) (h : s.cfg.segMax ≤ 4 * k) :
    writeLocation v s (.segWord k) = s := if_neg (Nat.not_lt.2 h)

theorem readLocation_segWord_of_lt {s : State} {k : Nat} (h : 4 * k < s.cfg.segMax) :
    readLocation s (.segWord k) = segReadWord s k := if_pos h

theorem writeLocation_segWord_of_lt {s : State} {k : Nat} (v : Word) (h : 4 * k < s.cfg.segMax) :
    writeLocation v s (.segWord k) = segWriteWord k v s := if_pos h

/-! ## VCTRL -/

/-- A field inside the low bits a mask of ones keeps is the field of the masked word. -/
theorem extractLsb'_and_mask {m : Word} {start len : Nat} (v : Word)
    (hm : m.extractLsb' start len = BitVec.allOnes len) :
    (v &&& m).extractLsb' start len = v.extractLsb' start len := by
  rw [BitVec.extractLsb'_and, hm, BitVec.and_allOnes]

/-- Bits [31:7] of a word written to VCTRL are not stored (10_state.md R29). -/
theorem vctrlOfWord_and_mask (v : Word) : vctrlOfWord (v &&& 0x0000007F) = vctrlOfWord v := by
  unfold vctrlOfWord
  congr 1 <;> exact extractLsb'_and_mask v (by decide)

/-- Bits [31:7] of VCTRL read 0 (10_state.md R29). -/
theorem vctrlWord_high_bits (c : Vctrl) : vctrlWord c &&& 0xFFFFFF80 = 0 := by
  have hfields (i : Nat) (hi : 7 ≤ i) : (vctrlWord c).getLsbD i = false := by
    simp only [vctrlWord, BitVec.getLsbD_append]
    simp [show ¬ i < 1 by omega, show ¬ i - 1 < 2 by omega,
      show ¬ i - 1 - 2 < 3 by omega, show ¬ i - 1 - 2 - 3 < 1 by omega]
  have hmask : ∀ i < 7, (0xFFFFFF80 : Word).getLsbD i = false := by decide
  apply BitVec.eq_of_getLsbD_eq
  intro i _
  rw [BitVec.getLsbD_and, show (0 : Word).getLsbD i = false from BitVec.getLsbD_zero, Bool.and_eq_false_iff]
  obtain hlow | hhigh := Nat.lt_or_ge i 7
  · exact .inr (hmask i hlow)
  · exact .inl (hfields i hhigh)

/-! ## Whitelists -/

/-- A write to word `j` of whitelist `f` replaces that word and keeps the other whitelists. -/
theorem whitelist_writeLocation_wlWord {s : State} {f : Nat} (hf : f < s.cfg.nFilt) (hlen : s.wl.length = s.cfg.nFilt)
    (j : Fin 8) (v : Word) (g : Nat) :
    (writeLocation v s (.wlWord f j)).whitelist g = if g = f then (s.whitelist f).set j v else s.whitelist g := by
  have hlisted : f < s.wl.length := hf.trans_eq hlen.symm
  rw [writeLocation_wlWord_of_lt j v hf]
  simp only [State.whitelist, List.getD_eq_getElem?_getD, List.getElem?_set]
  by_cases hg : g = f
  · subst hg; simp [hlisted]
  · simp [hg, Ne.symm hg]

/-- The word of a whitelist that holds a kind's bit (10_state.md R32). -/
theorem kindWord_eq_iff (k : Byte) (j : Fin 8) : j = Fin.ofNat 8 (k.toNat / 32) ↔ k.toNat / 32 = j.val := by
  have hk := k.isLt
  simp only [Fin.ext_iff, Fin.ofNat]
  omega

end Sys2Proof.Machine
end

section
/-! The statements of the family of 20_memory.md. -/

namespace Sys2Proof.Machine

/-- Settles O49: each kind of reserved place reads 0 and stores nothing, and a read-only place stores nothing. -/
theorem reservedAndReadOnlyPlaces : Obligations.ReservedAndReadOnlyPlaces := by
  refine fun a v s hr => ⟨fun h => ?reserved, fun h => ?readOnly, fun n j hl => ?slotWindow,
    (vctrlOfWord_and_mask v).symm, vctrlWord_high_bits _⟩
  case reserved =>
    obtain hl | ⟨n, j, hl, hn | hj⟩ | ⟨f, j, hl, hf⟩ | ⟨k, hl, hk⟩ := h
    · exact perform_at_inert hr hl nofun rfl rfl
    · exact perform_at_inert hr hl nofun (readLocation_slotWord_of_ge j hn) rfl
    · exact perform_at_inert hr hl nofun (readLocation_slotWord_reserved s n hj) rfl
    · exact perform_at_inert hr hl nofun (readLocation_wlWord_of_ge j hf) (writeLocation_wlWord_of_ge j v hf)
    · exact perform_at_inert hr hl nofun (readLocation_segWord_of_ge hk) (writeLocation_segWord_of_ge v hk)
  case readOnly =>
    simp only [List.mem_cons, List.not_mem_nil, or_false] at h
    obtain hl | hl | hl | hl | hl | hl := h <;> exact perform_write_at hr hl nofun
  case slotWindow => exact perform_write_at hr hl nofun

/-- Settles O52, from the whitelist after one of its words is replaced. -/
theorem whitelistWindow : Obligations.WhitelistWindow := by
  refine fun f j v s hf hr => ⟨fun hlt hlen => ?stored, fun hge => ?reserved⟩
  case stored =>
    have hwl := whitelist_writeLocation_wlWord hlt hlen j v
    obtain ⟨hcfg, -⟩ := writeLocation_frame v s (.wlWord f j)
    refine ⟨_, perform_write_at hr (locate_wlWord hf j) nofun, ?frame, ?readBack, fun k => ?bits,
      fun g k hg => ?others⟩
    case frame => rw [writeLocation_wlWord_of_lt j v hlt]
    case readBack =>
      rw [busRead_at (locate_wlWord hf j), readLocation_wlWord_of_lt j (by rwa [hcfg]), hwl, if_pos rfl, bank_get_set,
        if_pos rfl]
    case bits =>
      simp only [whitelisted, hwl, if_true, bank_get_set, kindWord_eq_iff]
      split <;> rfl
    case others => simp only [whitelisted, hwl, if_neg hg]
  case reserved =>
    constructor
    · rw [busRead_at (locate_wlWord hf j), readLocation_wlWord_of_ge j hge]
    · rw [perform_write_at hr (locate_wlWord hf j) nofun, writeLocation_wlWord_of_ge j v hge]

/-- Settles O53: word `j` of the window is at offset 4 j, and a slot's derived words are their formulas. -/
theorem slotWindowWords : Obligations.SlotWindowWords := by
  intro n t s hn htrk hslot
  obtain ⟨hread, hwrite, -⟩ := onlyTrackerCommandsChangeSlots
  have word (j : Fin 16) := hread n j t s hn htrk hslot
  refine ⟨⟨word 0, word 1, word 2, word 3, word 4, word 5, word 6, word 7, word 8, word 9, word 10, word 11,
    word 12, word 13, word 14, word 15⟩, fun o v ho hr => ?_⟩
  have ha : (BitVec.ofNat 17 (0x04000 + 64 * n + o)).toNat = 0x04000 + 64 * n + o := by
    rw [BitVec.toNat_ofNat]; omega
  exact hwrite _ v s hr (by omega) (by omega)

/-- Settles O54, from the four lanes of a window write and the bytes it leaves. -/
theorem segmemWindowWrite : Obligations.SegmemWindowWrite := by
  refine fun k v s hk hr => ⟨fun hlt => ?stored, fun hge => ?reserved, fun hlegal hlt => ?aligned⟩
  case stored =>
    refine ⟨segWriteWord k v s, ?_, rfl, segRead_segWriteWord_inside k v s (j := 0) (by omega),
      segRead_segWriteWord_inside k v s (j := 1) (by omega), segRead_segWriteWord_inside k v s (j := 2) (by omega),
      segRead_segWriteWord_inside k v s (j := 3) (by omega), fun i => segRead_segWriteWord_outside k v s⟩
    rw [perform_write_at hr (locate_segWord hk) nofun, writeLocation_segWord_of_lt v hlt]
  case reserved => rw [perform_write_at hr (locate_segWord hk) nofun, writeLocation_segWord_of_ge v hge]
  case aligned =>
    obtain ⟨-, -, -, -, -, hmultiple⟩ := hlegal
    omega

/-- Settles O55: a read answers the window's word and only lengthens the host's list. -/
theorem segmemWindowRead : Obligations.SegmemWindowRead := by
  refine fun k s hk hlt => ⟨?value, fun hr => ⟨_, perform_read hr, rfl⟩⟩
  rw [busRead_at (locate_segWord hk), readLocation_segWord_of_lt hlt, segReadWord]

/-- Settles O44: an access acts through the place its offset names, which the low two bits do not choose. -/
theorem lowAddressBitsIgnored : Obligations.LowAddressBitsIgnored := by
  intro a v s
  have hplace := locate_clearLowBits a
  exact ⟨perform_write_congr hplace.symm v s, by rw [busRead, busRead, hplace],
    exists_perform_write_next a v, fun hr => ⟨_, perform_read hr⟩⟩

end Sys2Proof.Machine
end

section
/-! SUPPORT. The words of the commands (30_encoding.md R70, R75, R77), and the expansion of a mnemonic (R80). -/

namespace Sys2Proof.Machine

/-! ## Words -/

/-- The operation codes of the opcode map (30_encoding.md R75): four blocks, and nothing between them. -/
theorem opc_assigned (i : Instr) :
    i.opc.toNat = 0x00 ∨ (0x10 ≤ i.opc.toNat ∧ i.opc.toNat ≤ 0x12) ∨
      (0x20 ≤ i.opc.toNat ∧ i.opc.toNat ≤ 0x27) ∨ (0x30 ≤ i.opc.toNat ∧ i.opc.toNat ≤ 0x31) := by
  cases i <;> simp [Instr.opc]

/-- A word whose OPC no command has is illegal (30_encoding.md R76). -/
theorem exists_illegal_of_opc {w : Word} (h : ∀ i : Instr, opcField w ≠ i.opc) : ∃ why, decode w = .illegal why := by
  cases hdecode : decode w with
  | command i => exact absurd (opcField_of_decode hdecode) (h i)
  | illegal why => exact ⟨why, rfl⟩

/-- The commands whose IDX must be 0 (30_encoding.md R75). -/
def zeroIndex : Instr → Bool
  | .nop | .slt | .sle | .sdist | .vseg => true
  | _ => false

/-- The row of a command whose IDX must be 0 fixes the whole word, to the command's. -/
theorem opcodeMap_fixes_word :
    ∀ r ∈ opcodeMap, ∀ n, zeroIndex (r.build n) = true →
      r.mask = BitVec.allOnes 32 ∧ r.pattern = encode (r.build n) := by
  simp only [opcodeMap, List.forall_mem_cons, List.not_mem_nil, false_implies, implies_true, and_true]
  have fixed (i : Instr) (p : Word) (hp : p = encode i) :
      Nat → zeroIndex i = true → (0xFFFFFFFF : Word) = BitVec.allOnes 32 ∧ p = encode i := fun _ _ => ⟨rfl, hp⟩
  exact ⟨fixed .nop _ (by decide), fixed .slt _ (by decide), fixed .sle _ (by decide), fixed .sdist _ (by decide),
    nofun, nofun, nofun, nofun, nofun, nofun, nofun, nofun, fixed .vseg _ (by decide), nofun⟩

/-- A command whose IDX must be 0 is decoded from its own word only. -/
theorem eq_encode_of_decode_zeroIndex {w : Word} {i : Instr} (h : decode w = .command i) (hi : zeroIndex i = true) :
    w = encode i := by
  obtain ⟨r, hr, hw, rfl⟩ := exists_row_of_decode h
  obtain ⟨hmask, hpattern⟩ := opcodeMap_fixes_word r hr _ hi
  rwa [hmask, BitVec.and_allOnes, hpattern] at hw

/-- The word of a command as a number: OPC, and IDX eight bits up (30_encoding.md R70). -/
theorem encode_eq_ofNat (i : Instr) (h : i.index < 256) :
    encode i = BitVec.ofNat 32 (i.opc.toNat + 256 * i.index) := by
  have hopc : i.opc.toNat < 2 ^ 8 := i.opc.isLt
  apply BitVec.eq_of_toNat_eq
  simp only [encode, BitVec.toNat_append, BitVec.toNat_ofNat, Nat.zero_mod, Nat.zero_shiftLeft, Nat.zero_or]
  rw [← Nat.shiftLeft_add_eq_or_of_lt hopc, Nat.shiftLeft_eq]
  omega

/-- Running an illegal word is ending in ERR_OPCODE, with the word's low byte as LASTOPC (30_encoding.md R77). -/
theorem runCommand_illegal {w : Word} {why : IllegalCause} (s : State) (h : decode w = .illegal why) :
    runCommand w s = .next (raiseErr .opcode (opcField w) s) := by
  rw [runCommand, h]

/-! ## Mnemonics -/

/-- An operand for a register the command does not read is not written. -/
@[simp] theorem operandLine_unread (r : Location) (a : HostArg) : operandLine false r a = [] := by
  cases a <;> rfl

/-- An operand written as a register name is not written. -/
@[simp] theorem operandLine_register (reads : Bool) (r : Location) : operandLine reads r .register = [] := rfl

/-- A value for a register the command reads is written to it. -/
@[simp] theorem operandLine_value (r : Location) (v : HostValue) : operandLine true r (.value v) = [.wr r v] := rfl

/-- A mnemonic without result shorthands is its operand writes, OPA first, then the CMD write (30_encoding.md R80). -/
theorem expandLine_command {i : Instr} {w : Word} (hw : encode i = w) (a b : HostArg) :
    expandLine (.command i a b [] none) =
      operandLine (readsOpa i) .opa a ++ operandLine (readsOpb i) .opb b ++ [.wr .cmd (.lit w)] := by
  simp [expandLine, resultLines, statusLine, hw]

/-- A command that reads no operand register expands to its CMD write. -/
theorem expandLine_readsNone {i : Instr} {w : Word} (hw : encode i = w) (ha : readsOpa i = false)
    (hb : readsOpb i = false) (a b : HostArg) : expandLine (.command i a b [] none) = [.wr .cmd (.lit w)] := by
  simp [expandLine_command hw, ha, hb]

/-- A command that reads OPA alone expands to two writes. -/
theorem expandLine_readsOpa {i : Instr} {w : Word} (hw : encode i = w) (ha : readsOpa i = true)
    (hb : readsOpb i = false) (v : HostValue) (b : HostArg) :
    expandLine (.command i (.value v) b [] none) = [.wr .opa v, .wr .cmd (.lit w)] := by
  simp [expandLine_command hw, ha, hb]

/-- A command that reads both operand registers expands to three writes. -/
theorem expandLine_readsBoth {i : Instr} {w : Word} (hw : encode i = w) (ha : readsOpa i = true)
    (hb : readsOpb i = true) (u v : HostValue) :
    expandLine (.command i (.value u) (.value v) [] none) = [.wr .opa u, .wr .opb v, .wr .cmd (.lit w)] := by
  simp [expandLine_command hw, ha, hb]

/-- No command reads OPB alone (30_encoding.md R74). -/
theorem readsOpa_of_readsOpb {i : Instr} (h : readsOpb i = true) : readsOpa i = true := by
  cases i with
  | slt | sle | sdist | tinit => rfl
  | _ => cases h

end Sys2Proof.Machine
end

section
/-! The statements of the family of 30_encoding.md. -/

namespace Sys2Proof.Machine

/-- Settles O5: no command has a reserved OPC, and NOP's IDX must be 0. -/
theorem illegalWordsChangeStatusOnly : Obligations.IllegalWordsChangeStatusOnly := by
  have write (w : Word) (s : State) (hr : s.inReset = false) : perform (.write 0x00010 w) s = runCommand w s :=
    perform_write_cmd hr locate_cmd
  refine ⟨write, fun w why s h => ?illegal, fun w hreserved => ?reserved, fun w => ⟨fun h => ?nop, fun h => ?zero⟩⟩
  case illegal => exact ⟨runCommand_illegal s h, fun hr => (write w s hr).trans (runCommand_illegal s h)⟩
  case reserved =>
    refine exists_illegal_of_opc fun i hi => ?_
    have hassigned := opc_assigned i
    rw [← hi, opcField] at hassigned
    omega
  case nop => exact eq_encode_of_decode_zeroIndex h rfl
  case zero => exact h ▸ by decide

/-- Settles O60: which operand registers each command reads, and its word as a number. -/
theorem mnemonicExpansions : Obligations.MnemonicExpansions := by
  refine ⟨expandLine_readsNone (by decide) rfl rfl, ?slt, ?sle, ?sdist,
    fun s hs => expandLine_readsBoth (encode_eq_ofNat (.tinit s) hs) rfl rfl,
    fun s hs => expandLine_readsNone (encode_eq_ofNat (.trel s) hs) rfl rfl,
    fun s hs => expandLine_readsOpa (encode_eq_ofNat (.tqueue s) hs) rfl rfl,
    fun s hs => expandLine_readsOpa (encode_eq_ofNat (.tmark s) hs) rfl rfl,
    fun s hs => expandLine_readsOpa (encode_eq_ofNat (.tfree s) hs) rfl rfl,
    fun s hs => expandLine_readsOpa (encode_eq_ofNat (.tack s) hs) rfl rfl,
    fun s hs => expandLine_readsNone (encode_eq_ofNat (.trtx s) hs) rfl rfl,
    fun s hs => expandLine_readsOpa (encode_eq_ofNat (.trmark s) hs) rfl rfl,
    expandLine_readsNone (by decide) rfl rfl,
    fun f hf => expandLine_readsNone (encode_eq_ofNat (.vopt f) hf) rfl rfl,
    fun i => ?registers, fun i v hb => ?oneRegister⟩
  case slt | sle | sdist => exact expandLine_readsBoth (by decide) rfl rfl
  case registers => simp [expandLine_command rfl]
  case oneRegister => simp [expandLine_command rfl, readsOpa_of_readsOpb hb, hb]

/-- Settles O1: both directions of the four legal examples, and the three illegal words, by evaluation. -/
theorem encodingExamplesDecode : Obligations.EncodingExamplesDecode := by
  refine ⟨⟨?_, ?_⟩, ⟨?_, ?_⟩, ⟨?_, ?_⟩, ⟨?_, ?_⟩, ?_, ?_, ?_⟩ <;> decide

end Sys2Proof.Machine
end

section
/-! SUPPORT. The SEQ relations (40_seqarith.md R91, R92, R96, R97) as facts about one word, the distance, read as
signed and as unsigned. -/

namespace Sys2Proof.Machine

/-! ## Distance -/

/-- Swapping the operands negates the distance, modulo 2^32. -/
theorem distance_swap (a b : Word) : distance b a = -distance a b := (neg_sub b a).symm

theorem distance_eq_zero_iff (a b : Word) : distance a b = 0 ↔ a = b := sub_eq_zero.trans eq_comm

/-- Moving both operands by one amount keeps their distance. -/
theorem distance_add_right (a b k : Word) : distance (a + k) (b + k) = distance a b :=
  add_sub_add_right_eq_sub b a k

theorem distance_add_distance (a b c : Word) : distance a b + distance b c = distance a c :=
  sub_add_sub_cancel' b a c

theorem toInt_distance_eq_zero_iff (a b : Word) : (distance a b).toInt = 0 ↔ a = b :=
  (BitVec.toInt_inj (y := 0)).trans (distance_eq_zero_iff a b)

/-- The antipode is its own negation, so it is the distance in both orders. -/
theorem distance_swap_antipode {a b : Word} (h : distance a b = 0x80000000) : distance b a = 0x80000000 := by
  rw [distance_swap, h]
  decide

/-- Off the antipode, swapping the operands negates the signed distance. -/
theorem toInt_distance_swap {a b : Word} (h : distance a b ≠ 0x80000000) :
    (distance b a).toInt = -(distance a b).toInt := by
  rw [distance_swap]
  exact BitVec.toInt_neg_of_ne_intMin h

/-- A word that is positive as signed lies, as unsigned, strictly between 0 and the antipode. -/
theorem toInt_pos_iff_toNat (d : Word) : 0 < d.toInt ↔ 0 < d.toNat ∧ d.toNat < 2 ^ 31 := by
  rw [BitVec.toInt_eq_toNat_cond]
  split <;> omega

/-! ## The relations -/

theorem isLower_iff (a b : Word) : isLower a b = true ↔ 0 < (distance a b).toInt := decide_eq_true_iff

theorem isLowerOrEqual_iff (a b : Word) : isLowerOrEqual a b = true ↔ 0 ≤ (distance a b).toInt := decide_eq_true_iff

theorem isLowerIn_other_iff (a b : Word) : isLowerIn .aMinusBNeg a b = true ↔ (distance b a).toInt < 0 :=
  decide_eq_true_iff

theorem isLowerOrEqualIn_other_iff (a b : Word) :
    isLowerOrEqualIn .aMinusBNeg a b = true ↔ (distance b a).toInt ≤ 0 := decide_eq_true_iff

theorem isLower_iff_toNat (a b : Word) :
    isLower a b = true ↔ 0 < (distance a b).toNat ∧ (distance a b).toNat < 2 ^ 31 :=
  (isLower_iff a b).trans (toInt_pos_iff_toNat _)

/-- Off the antipode, "above" is the negative sign of the same distance. -/
theorem isLower_swap_iff {a b : Word} (h : distance a b ≠ 0x80000000) :
    isLower b a = true ↔ (distance a b).toInt < 0 := by
  rw [isLower_iff, toInt_distance_swap h, Int.neg_pos]

/-- At the antipode the default form rejects a pair and the other form accepts the swapped pair. -/
theorem relations_at_antipode {a b : Word} (h : distance a b = 0x80000000) :
    isLower a b = false ∧ isLowerOrEqual a b = false ∧ isLowerIn .aMinusBNeg b a = true := by
  rw [distance] at h
  rw [isLower, isLowerOrEqual, isLowerIn, h]
  decide

/-- Off the antipode the two forms of both relations agree. -/
theorem relations_off_antipode {a b : Word} (h : distance a b ≠ 0x80000000) :
    isLowerIn .aMinusBNeg a b = isLower a b ∧ isLowerOrEqualIn .aMinusBNeg a b = isLowerOrEqual a b := by
  constructor
  · rw [Bool.eq_iff_iff, isLowerIn_other_iff, isLower_iff, toInt_distance_swap h, Int.neg_neg_iff_pos]
  · rw [Bool.eq_iff_iff, isLowerOrEqualIn_other_iff, isLowerOrEqual_iff, toInt_distance_swap h, Int.neg_nonpos_iff]

theorem isLower_asymm (a b : Word) : ¬(isLower a b = true ∧ isLower b a = true) := by
  rintro ⟨hab, hba⟩
  by_cases h : distance a b = 0x80000000
  · exact Bool.false_ne_true ((relations_at_antipode h).1.symm.trans hab)
  · exact Int.lt_asymm ((isLower_iff a b).1 hab) ((isLower_swap_iff h).1 hba)

/-- Within half a circle from `o`, the relation is the order of the unsigned distances from `o`. -/
theorem isLower_iff_lt_of_half_circle {o a b : Word} (ha : (a - o).toNat < 2 ^ 31) (hb : (b - o).toNat < 2 ^ 31) :
    isLower a b = true ↔ (a - o).toNat < (b - o).toNat := by
  have hd : distance a b = (b - o) - (a - o) := (sub_sub_sub_cancel_right b a o).symm
  rw [isLower_iff_toNat, hd, BitVec.toNat_sub]
  omega

end Sys2Proof.Machine
end

section
/-! SUPPORT. The words and results of the SEQ commands (40_seqarith.md R93 to R95), and which commands depend on
SEQ_FORM (R97). -/

namespace Sys2Proof.Machine

/-! ## Words -/

/-- The commands whose IDX must be 0, by operation code (30_encoding.md R75). -/
theorem zeroIndex_iff_opc (i : Instr) :
    zeroIndex i = true ↔ i.opc = 0x00 ∨ i.opc = 0x10 ∨ i.opc = 0x11 ∨ i.opc = 0x12 ∨ i.opc = 0x30 := by
  cases i <;> simp [zeroIndex, Instr.opc]

theorem index_of_zeroIndex {i : Instr} (h : zeroIndex i = true) : i.index = 0 := by
  cases i with
  | nop | slt | sle | sdist | vseg => rfl
  | _ => cases h

/-- A command whose IDX must be 0 shares its operation code with no other word (30_encoding.md R77). -/
theorem onlyLegalWord_encode {i : Instr} (hi : zeroIndex i = true) : OnlyLegalWord i.opc (encode i) := by
  intro v s hv hne
  cases hdecode : decode v with
  | illegal why => rw [runCommand_illegal s hdecode, hv]; rfl
  | command j =>
    have hopc : j.opc = i.opc := (opcField_of_decode hdecode).symm.trans hv
    have hj : zeroIndex j = true := (zeroIndex_iff_opc j).2 (hopc ▸ (zeroIndex_iff_opc i).1 hi)
    have hword : encode j = encode i := by
      rw [encode, encode, hopc, index_of_zeroIndex hj, index_of_zeroIndex hi]
    exact absurd ((eq_encode_of_decode_zeroIndex hdecode hj).trans hword) hne

/-! ## Results -/

/-- SLT gives the configured form of is_lower (40_seqarith.md R93, R97). -/
theorem exec_slt (s : State) :
    exec .slt s = .next { s with
      statusCode := 0x00, statusLastOpc := 0x10
      res0 := if isLowerIn s.cfg.seqForm s.opa s.opb then 1 else 0, res1 := 0 } := rfl

/-- SLE gives the configured form of is_lower_or_equal (40_seqarith.md R94, R97). -/
theorem exec_sle (s : State) :
    exec .sle s = .next { s with
      statusCode := 0x00, statusLastOpc := 0x11
      res0 := if isLowerOrEqualIn s.cfg.seqForm s.opa s.opb then 1 else 0, res1 := 0 } := rfl

/-! ## Independence of SEQ_FORM -/

/-- `s` with another value of SEQ_FORM in its configuration. -/
def State.withSeqForm (f : SeqForm) (s : State) : State := { s with cfg := { s.cfg with seqForm := f } }

/-- A check before the rest of a command keeps two outcomes equal up to SEQ_FORM. -/
theorem withSeqForm_ite {f : SeqForm} {t t' u u' : State} {c : Prop} [Decidable c] (ht : t' = t.withSeqForm f)
    (hu : u' = u.withSeqForm f) : (if c then t' else u') = (if c then t else u).withSeqForm f := by
  rw [ht, hu, apply_ite (State.withSeqForm f)]

/-- The checks every ABT command but TINIT makes first do not depend on SEQ_FORM. -/
theorem withActiveSlot_withSeqForm {opc : Byte} {n : Nat} {f : SeqForm} {s : State} {k k' : Slot → State}
    (hk : ∀ u, k' u = (k u).withSeqForm f) :
    withActiveSlot opc n (s.withSeqForm f) k' = (withActiveSlot opc n s k).withSeqForm f :=
  withSeqForm_ite rfl (withSeqForm_ite rfl (hk _))

/-- The option scan reads SEGMEM and a whitelist, so it does not depend on SEQ_FORM. -/
theorem optScan_withSeqForm (form : SeqForm) (s : State) (f stop fuel : Nat) :
    ∀ (i : Nat) (mss : Option (BitVec 16)),
      optScan (s.withSeqForm form) f stop fuel i mss = optScan s f stop fuel i mss := by
  have hread (i : Nat) : segRead (s.withSeqForm form) i = segRead s i := rfl
  have hlist (k : Byte) : whitelisted (s.withSeqForm form) f k = whitelisted s f k := rfl
  induction fuel with
  | zero => exact fun _ _ => rfl
  | succ fuel ih => exact fun i mss => by simp only [optScan_succ, hread, hlist, ih]

theorem voptVerdict_withSeqForm (form : SeqForm) (s : State) (f : Nat) :
    voptVerdict (s.withSeqForm form) f = voptVerdict s f := by
  have hlength : lengthChecks (s.withSeqForm form) = lengthChecks s := rfl
  have hheader : headerLength (s.withSeqForm form) = headerLength s := rfl
  simp only [voptVerdict, hlength, hheader, optScan_withSeqForm]

/-- Every command but SLT and SLE does the same under every value of SEQ_FORM (40_seqarith.md R97). -/
theorem exec_withSeqForm {i : Instr} {s t : State} (f : SeqForm) (hslt : i ≠ .slt) (hsle : i ≠ .sle)
    (h : exec i s = .next t) : exec i (s.withSeqForm f) = .next (t.withSeqForm f) := by
  cases i with
  | slt => exact absurd rfl hslt
  | sle => exact absurd rfl hsle
  | nop | sdist => cases h; rfl
  | tinit n =>
    cases h
    exact congrArg Host.Outcome.next (withSeqForm_ite rfl (withSeqForm_ite rfl (withSeqForm_ite rfl rfl)))
  | trel n | tqueue n | trtx n =>
    cases h
    exact congrArg Host.Outcome.next (withActiveSlot_withSeqForm fun _ => rfl)
  | tmark n | tfree n | trmark n =>
    cases h
    exact congrArg Host.Outcome.next (withActiveSlot_withSeqForm fun _ => withSeqForm_ite rfl rfl)
  | tack n =>
    cases h
    refine congrArg Host.Outcome.next (withActiveSlot_withSeqForm fun u => ?_)
    have hopa : (s.withSeqForm f).opa = s.opa := rfl
    rw [hopa]
    cases ackClass u s.opa with
    | new | dup | future => rfl
  | vseg =>
    cases h
    exact congrArg Host.Outcome.next (withSeqForm_ite rfl rfl)
  | vopt n =>
    cases h
    refine congrArg Host.Outcome.next (withSeqForm_ite rfl (withSeqForm_ite rfl ?_))
    rw [voptVerdict_withSeqForm]
    rfl

end Sys2Proof.Machine
end

section
/-! The statements of the family of 40_seqarith.md. -/

namespace Sys2Proof.Machine

/-- Settles O15: off the antipode swapping the operands negates the signed distance, at it the distance is its own
negation. -/
theorem antipodeOfBothForms : Obligations.AntipodeOfBothForms := by
  refine ⟨fun a b (h : distance a b = 0x80000000) => ?antipode, fun a b => ⟨?other, ?otherEq, relations_off_antipode⟩,
    fun s => ⟨exec_slt s, exec_sle s⟩, fun i s t f hslt hsle => exec_withSeqForm f hslt hsle⟩
  case antipode =>
    have hswap := distance_swap_antipode h
    obtain ⟨hlower, hlowerEq, hother⟩ := relations_at_antipode h
    obtain ⟨hlower', hlowerEq', hother'⟩ := relations_at_antipode hswap
    exact ⟨hlower, hlower', hlowerEq, hlowerEq', h, hswap, hother', hother⟩
  case other => exact isLowerIn_other_iff a b
  case otherEq => exact isLowerOrEqualIn_other_iff a b

/-- Settles O16: each law is a fact about the distance, signed or unsigned. -/
theorem sequenceOrderLaws : Obligations.SequenceOrderLaws := by
  refine ⟨fun a => ?successor, fun a b => ?strict, isLower_asymm, fun a b => ?trichotomy, fun a b k => ?translation,
    isLower_iff_toNat, by decide, fun o a b c ha hb hc => ?transitive, distance_add_distance⟩
  case successor =>
    have hd : distance a (a + 1) = 1 := add_sub_cancel_left a 1
    rw [isLower_iff, hd]
    decide
  case strict =>
    rw [Bool.eq_iff_iff, Bool.and_eq_true, bne_iff_ne, isLower_iff, isLowerOrEqual_iff, ne_eq,
      ← toInt_distance_eq_zero_iff]
    omega
  case trichotomy =>
    by_cases h : distance a b = 0x80000000
    · have hne : a ≠ b := by
        rintro rfl
        simp [distance] at h
      have hlower := (relations_at_antipode h).1
      have hlower' := (relations_at_antipode (distance_swap_antipode h)).1
      simp [hlower, hlower', hne, show b - a = 0x80000000 from h]
    · refine iff_of_true ?_ h
      rw [ne_eq, ← toInt_distance_eq_zero_iff, ← Bool.not_eq_true, ← Bool.not_eq_true, isLower_swap_iff h, isLower_iff]
      omega
  case translation =>
    have hd := distance_add_right a b k
    refine ⟨?_, ?_, hd⟩
    · rw [Bool.eq_iff_iff, isLower_iff, isLower_iff, hd]
    · rw [Bool.eq_iff_iff, isLowerOrEqual_iff, isLowerOrEqual_iff, hd]
  case transitive =>
    rw [isLower_iff_lt_of_half_circle ha hb, isLower_iff_lt_of_half_circle hb hc, isLower_iff_lt_of_half_circle ha hc]
    exact Nat.lt_trans

/-- Settles O14: the sign of the distance, as the relations read it. -/
theorem distanceSign : Obligations.DistanceSign := by
  intro a b
  have hzero := toInt_distance_eq_zero_iff a b
  have hlower := isLower_iff a b
  refine ⟨rfl, BitVec.le_toInt _, Int.le_sub_one_of_lt BitVec.toInt_lt, hlower.symm, hzero, ?negative⟩
  case negative =>
    rw [← Bool.not_eq_true, hlower, ne_eq, ← hzero]
    omega

/-- Settles O11: in the default form SLT reads the sign of the distance. -/
theorem sltOutcome : Obligations.SltOutcome := by
  refine ⟨by decide, onlyLegalWord_encode (i := .slt) rfl, fun s hform => ?_⟩
  simp only [exec_slt, hform, isLowerIn, isLower_iff, distance, gt_iff_lt]

/-- Settles O12: in the default form SLE reads the sign of the distance. -/
theorem sleOutcome : Obligations.SleOutcome := by
  refine ⟨by decide, onlyLegalWord_encode (i := .sle) rfl, fun s hform => ?_⟩
  simp only [exec_sle, hform, isLowerOrEqualIn, isLowerOrEqual_iff, distance, ge_iff_le]

/-- Settles O13: SDIST reads no SEQ_FORM, and its IDX must be 0. -/
theorem sdistOutcome : Obligations.SdistOutcome :=
  ⟨by decide, onlyLegalWord_encode (i := .sdist) rfl, fun _ => rfl⟩

end Sys2Proof.Machine
end

section
/-! SUPPORT. Decoding a word from the row that covers it (30_encoding.md R75, R76), and the words of VOPT. -/

namespace Sys2Proof.Machine

/-- No two rows of the opcode map have the same operation code (30_encoding.md R75). -/
theorem opcodeMap_opc_injective :
    ∀ r ∈ opcodeMap, ∀ r' ∈ opcodeMap, opcField r.pattern = opcField r'.pattern → r = r' :=
  List.inj_on_of_nodup_map (f := fun r : Row => opcField r.pattern) (by decide)

/-- The rows are disjoint, so a word that a row covers is that row's command, whatever the order of the map. -/
theorem decode_of_covers {w : Word} {r : Row} (hr : r ∈ opcodeMap) (hw : w &&& r.mask = r.pattern) :
    decode w = .command (r.build (idxField w)) := by
  cases hdecode : decode w with
  | illegal why =>
    unfold decode at hdecode
    split at hdecode
    next => cases hdecode
    next hnone => exact absurd (by simpa [Row.covers] using hw) (List.find?_eq_none.1 hnone r hr)
  | command i =>
    obtain ⟨r', hr', hw', rfl⟩ := exists_row_of_decode hdecode
    have hopc {q : Row} (hq : q ∈ opcodeMap) (hqw : w &&& q.mask = q.pattern) : opcField q.pattern = opcField w := by
      rw [← hqw, opcField, BitVec.extractLsb'_and, ← opcField, ← opcField, (opcodeMap_fixes_opc q hq).1,
        BitVec.and_allOnes]
    rw [opcodeMap_opc_injective r' hr' r hr ((hopc hr' hw').trans (hopc hr hw).symm)]

/-- Every row fixes RSV to 0 (30_encoding.md R75). -/
theorem opcodeMap_fixes_rsv :
    ∀ r ∈ opcodeMap, rsvField r.mask = BitVec.allOnes 16 ∧ rsvField r.pattern = 0 := by
  simp only [opcodeMap, List.forall_mem_cons, List.not_mem_nil, false_implies, implies_true, and_true]
  decide

/-- A legal word has RSV = 0 (30_encoding.md R76). -/
theorem rsvField_of_decode {w : Word} {i : Instr} (h : decode w = .command i) : rsvField w = 0 := by
  obtain ⟨r, hr, hw, -⟩ := exists_row_of_decode h
  obtain ⟨hmask, hpattern⟩ := opcodeMap_fixes_rsv r hr
  calc rsvField w = rsvField w &&& rsvField r.mask := by rw [hmask, BitVec.and_allOnes]
    _ = rsvField (w &&& r.mask) := BitVec.extractLsb'_and.symm
    _ = 0 := by rw [hw, hpattern]

/-- A word with RSV not 0 is illegal, so running it ends in ERR_OPCODE (30_encoding.md R77). -/
theorem runCommand_of_rsv {w : Word} (s : State) (h : rsvField w ≠ 0) :
    runCommand w s = .next (raiseErr .opcode (opcField w) s) := by
  cases hdecode : decode w with
  | command i => exact absurd (rsvField_of_decode hdecode) h
  | illegal why => exact runCommand_illegal s hdecode

/-- The row of VOPT covers every word VOPT encodes to. -/
theorem decode_encode_vopt {f : Nat} (hf : f < 256) : decode (encode (.vopt f)) = .command (.vopt f) := by
  have hw : encode (.vopt f) &&& 0xFFFF00FF = 0x00000031 := by
    have hmask : (0xFFFF00FF : Word) = 0xFFFF#16 ++ 0#8 ++ 0xFF#8 := by decide
    rw [encode, hmask, BitVec.and_append, BitVec.and_append, BitVec.and_zero, BitVec.zero_and, Instr.opc]
    decide
  have hidx : idxField (encode (.vopt f)) = f := (Laws.EncodeFields.vopt f).2.2 (decide_eq_true hf)
  rw [decode_of_covers (r := { mask := 0xFFFF00FF, pattern := 0x00000031, build := .vopt }) ?_ hw, hidx]
  simp only [opcodeMap, List.mem_cons, true_or, or_true]

end Sys2Proof.Machine
end

section
/-! SUPPORT. The checksum (41_validator.md R110, R111) and the flag map (R113). -/

namespace Sys2Proof.Machine

/-! ## The sum -/

/-- Of a string of even length `wordSum` is the sum of the words (41_validator.md R110). -/
theorem wordSum_eq_sum {d : List Byte} {m : Nat} (h : d.length = 2 * m) :
    wordSum d = ((List.range m).map fun i => 256 * (d.getD (2 * i) 0).toNat + (d.getD (2 * i + 1) 0).toNat).sum := by
  induction m generalizing d with
  | zero => rw [List.eq_nil_of_length_eq_zero h]; rfl
  | succ m ih =>
    match d, h with
    | a :: b :: rest, h =>
      have hrest : rest.length = 2 * m := by simp only [List.length_cons] at h; omega
      rw [wordSum, ih hrest, List.range_succ_eq_map, List.map_cons, List.sum_cons, List.map_map]
      rfl

/-! ## The fold -/

/-- One round of the fold keeps the residue modulo 65535 and lowers the value, but not to 0. -/
theorem foldRound_spec {n : Nat} (h : 0xFFFF < n) :
    (n % 65536 + n / 65536) % 65535 = n % 65535 ∧ n % 65536 + n / 65536 < n ∧ 0 < n % 65536 + n / 65536 := by
  omega

/-- Any bound at or above the value gives the same fold, so the bound of `foldSum` is large enough (log 10). -/
theorem foldLoop_bound {a b n : Nat} (ha : n ≤ a) (hb : n ≤ b) : foldLoop a n = foldLoop b n := by
  induction a generalizing b n with
  | zero =>
    obtain rfl : n = 0 := by omega
    cases b with
    | zero => rfl
    | succ b => rfl
  | succ a ih =>
    cases b with
    | zero =>
      obtain rfl : n = 0 := by omega
      rfl
    | succ b =>
      rw [foldLoop_succ, foldLoop_succ]
      refine ite_congr rfl (fun hn => ?_) fun _ => rfl
      obtain ⟨-, hlt, -⟩ := foldRound_spec hn
      exact ih (by omega) (by omega)

theorem foldSum_of_le {n : Nat} (h : n ≤ 0xFFFF) : foldSum n = n := by
  cases n with
  | zero => rfl
  | succ n => rw [foldSum, foldLoop_succ, if_neg (by omega)]

theorem foldSum_of_gt {n : Nat} (h : 0xFFFF < n) : foldSum n = foldSum (n % 65536 + n / 65536) := by
  obtain ⟨-, hlt, -⟩ := foldRound_spec h
  obtain ⟨k, rfl⟩ : ∃ k, n = k + 1 := ⟨n - 1, by omega⟩
  rw [foldSum, foldLoop_succ, if_pos h]
  exact foldLoop_bound (by omega) le_rfl

/-- The fold is a 16-bit value with the residue of what is folded, and 0 for 0 alone. -/
theorem foldSum_spec (n : Nat) :
    foldSum n ≤ 0xFFFF ∧ foldSum n % 65535 = n % 65535 ∧ (0 < n → 0 < foldSum n) := by
  induction n using Nat.strong_induction_on with
  | _ n ih =>
    obtain hle | hgt := le_or_gt n 0xFFFF
    · rw [foldSum_of_le hle]
      exact ⟨hle, rfl, id⟩
    · obtain ⟨hmod, hlt, hpos⟩ := foldRound_spec hgt
      obtain ⟨hbound, hresidue, hne⟩ := ih _ hlt
      rw [foldSum_of_gt hgt]
      exact ⟨hbound, hresidue.trans hmod, fun _ => hne hpos⟩

theorem csumOk_iff (d : List Byte) : csumOk d = true ↔ foldSum (wordSum d) = 0xFFFF := beq_iff_eq

/-- 0xFFFF is the one positive 16-bit value with residue 0, and the fold has the residue of the sum. -/
theorem foldSum_eq_max_iff (n : Nat) : foldSum n = 0xFFFF ↔ 0 < n ∧ n % 65535 = 0 := by
  obtain ⟨hbound, hresidue, hpos⟩ := foldSum_spec n
  have hzero : n = 0 → foldSum n = 0 := by rintro rfl; rfl
  omega

/-! ## The checksummed string -/

/-- The bytes of a bank of four words, word 0 first (41_validator.md R111). -/
theorem flatMap_bytesOf_bank (xs : Vector Word 4) :
    xs.toList.flatMap bytesOf = bytesOf xs[0] ++ bytesOf xs[1] ++ bytesOf xs[2] ++ bytesOf xs[3] := by
  obtain ⟨⟨l⟩, hl⟩ := xs
  match l, hl with
  | [a, b, c, d], _ => simp [bytesOf]

theorem pseudoHeader_ipv4 {s : State} (h : s.vctrl.af = 0) :
    pseudoHeader s = bytesOf s.srcAddr[0] ++ bytesOf s.dstAddr[0] ++
      [0x00, 0x06, s.vlen.extractLsb' 8 8, s.vlen.extractLsb' 0 8] := if_pos h

theorem pseudoHeader_ipv6 {s : State} (h : s.vctrl.af = 1) :
    pseudoHeader s = s.srcAddr.toList.flatMap bytesOf ++ s.dstAddr.toList.flatMap bytesOf ++ bytesOf s.vlen ++
      [0x00, 0x00, 0x00, 0x06] := if_neg (by rw [h]; decide)

/-- The two pseudo-headers have 12 and 40 bytes (41_validator.md R111). -/
theorem pseudoHeader_length_even (s : State) : (pseudoHeader s).length % 2 = 0 := by
  obtain h | h : s.vctrl.af = 0 ∨ s.vctrl.af = 1 := by generalize s.vctrl.af = af; revert af; decide
  · simp [pseudoHeader_ipv4 h]
  · simp [pseudoHeader_ipv6 h, flatMap_bytesOf_bank]

/-- The pad evens out the length of the segment. -/
theorem checksummed_length_even (s : State) : (checksummed s).length % 2 = 0 := by
  have hheader := pseudoHeader_length_even s
  rw [checksummed, segBytes, List.length_append, List.length_append, List.length_map, List.length_range]
  split
  · rw [List.length_singleton]; omega
  · rw [List.length_nil]; omega

/-! ## Flag combinations -/

/-- FLAGREJ0 and FLAGREJ1 are the low and high halves of one 64-entry map (41_validator.md R113). -/
theorem flagRejected_eq (s : State) (c : BitVec 6) : flagRejected s c = (s.flagRej1 ++ s.flagRej0).getLsbD c.toNat := by
  rw [flagRejected, BitVec.getLsbD_append]

/-- The map at reset does not depend on the configuration (41_validator.md R114). -/
theorem flagRejected_resetFor (p : Params) (c : BitVec 6) :
    flagRejected (State.resetFor p) c = (0xC8C8CBCBC8C8CBCB#64).getLsbD c.toNat := by
  have hmap : (0xC8C8CBCB : Word) ++ (0xC8C8CBCB : Word) = 0xC8C8CBCBC8C8CBCB#64 := by decide
  rw [flagRejected_eq, State.resetFor_flagRej0, State.resetFor_flagRej1, hmap]

end Sys2Proof.Machine
end

section
/-! SUPPORT. The verdicts of the shared checks and of VSEG (41_validator.md R100 to R113), the option scan round by
round (R125), and how the two SVAL commands end (R117, R126). -/

namespace Sys2Proof.Machine

/-! ## The verdict of VSEG -/

theorem lengthChecks_short {s : State} (h : s.vlen.toNat < 20) : lengthChecks s = some .short := if_pos h

theorem lengthChecks_doff {s : State} (h : 20 ≤ s.vlen.toNat)
    (hdoff : (segDoff s).toNat < 5 ∨ s.vlen.toNat < headerLength s) : lengthChecks s = some .doff := by
  rw [lengthChecks, if_neg (by omega), if_pos hdoff]

theorem lengthChecks_none_iff (s : State) :
    lengthChecks s = none ↔ 5 ≤ (segDoff s).toNat ∧ headerLength s ≤ s.vlen.toNat := by
  obtain ⟨hlen, h⟩ | ⟨hlen, hdoff, h⟩ | ⟨hlen, hlo, hhi, h⟩ := lengthChecks_cases s
  · simp only [h, headerLength, reduceCtorEq, false_iff]; omega
  · simp only [h, reduceCtorEq, false_iff]; omega
  · exact iff_of_true h ⟨hlo, hhi⟩

theorem vsegVerdict_addrState {s : State} (h : ¬(s.vctrl.astate = 2 ∨ s.vctrl.astate = 4)) :
    vsegVerdict s = .addrState := if_pos (not_or.1 h)

theorem vsegVerdict_dstType {s : State} (ha : s.vctrl.astate = 2 ∨ s.vctrl.astate = 4) (hd : s.vctrl.dtype ≠ 0) :
    vsegVerdict s = .dstType := by
  rw [vsegVerdict, if_neg fun h => not_or.2 h ha, if_pos hd]

/-- Past checks 0 and 1, a failed length or data-offset check gives the verdict. -/
theorem vsegVerdict_of_lengthChecks {s : State} {v : Verdict} (ha : s.vctrl.astate = 2 ∨ s.vctrl.astate = 4)
    (hd : s.vctrl.dtype = 0) (hl : lengthChecks s = some v) : vsegVerdict s = v := by
  rw [vsegVerdict, if_neg fun h => not_or.2 h ha, if_neg (not_not.2 hd), hl]

/-- Past checks 0 to 3, the checksum and then the flags give the verdict. -/
theorem vsegVerdict_past_length {s : State} (ha : s.vctrl.astate = 2 ∨ s.vctrl.astate = 4) (hd : s.vctrl.dtype = 0)
    (hl : lengthChecks s = none) :
    vsegVerdict s =
      if s.vctrl.csumok = 0 ∧ csumOk (checksummed s) = false then .csum
      else if flagRejected s (segFlags s) = true then .flags
      else .accept := by
  rw [vsegVerdict, if_neg fun h => not_or.2 h ha, if_neg (not_not.2 hd), hl]

/-- Check 4 passes when the checksum is declared verified or verifies (41_validator.md R112). -/
theorem csum_check_passes {s : State} (h : s.vctrl.csumok = 1 ∨ csumOk (checksummed s) = true) :
    ¬(s.vctrl.csumok = 0 ∧ csumOk (checksummed s) = false) := by
  rintro ⟨hflag, hsum⟩
  obtain h | h := h
  · rw [h] at hflag; exact absurd hflag (by decide)
  · rw [h] at hsum; cases hsum

/-- An accepted segment has a whole header. -/
theorem le_vlen_of_accept {s : State} (h : vsegVerdict s = .accept) : 20 ≤ s.vlen.toNat := by
  by_contra hlen
  unfold vsegVerdict at h
  rw [lengthChecks_short (by omega)] at h
  split at h
  next => cases h
  next =>
    split at h
    next => cases h
    next => cases h

/-! ## The option scan -/

/-- One pass of the loop of 41_validator.md R125 at index `i`, where `next` is the rest of the scan. -/
def optRound (s : State) (f stop : Nat) (next : Nat → Option (BitVec 16) → Verdict × Word) (i : Nat)
    (mss : Option (BitVec 16)) : Verdict × Word :=
  if segRead s i = 0 then (.accept, mssReport mss)
  else if segRead s i = 1 then next (i + 1) mss
  else if segRead s i ≠ 2 ∧ whitelisted s f (segRead s i) = false then (.optForb, 0)
  else if stop ≤ i + 1 then (.optMal, 0)
  else if (segRead s (i + 1)).toNat < 2 ∨ stop < i + (segRead s (i + 1)).toNat then (.optMal, 0)
  else if segRead s i = 2 then
    if (segRead s (i + 1)).toNat ≠ 4 then (.optMal, 0)
    else next (i + (segRead s (i + 1)).toNat) (some (mss.getD (segRead s (i + 2) ++ segRead s (i + 3))))
  else next (i + (segRead s (i + 1)).toNat) mss

theorem optScan_succ_of_lt {s : State} {f stop fuel i : Nat} {mss : Option (BitVec 16)} (h : i < stop) :
    optScan s f stop (fuel + 1) i mss = optRound s f stop (optScan s f stop fuel) i mss := by
  rw [optScan_succ, if_neg (by omega)]
  rfl

/-- A pass depends on the bytes below the end, the whitelist bits, and the rest of the scan further on. -/
theorem optRound_congr {s s' : State} {f stop i : Nat} {next next' : Nat → Option (BitVec 16) → Verdict × Word}
    {mss : Option (BitVec 16)} (hi : i < stop) (hbytes : ∀ j < stop, segRead s' j = segRead s j)
    (hwl : ∀ k, whitelisted s' f k = whitelisted s f k) (hnext : ∀ j > i, ∀ m, next' j m = next j m) :
    optRound s' f stop next' i mss = optRound s f stop next i mss := by
  unfold optRound
  rw [hbytes i hi, hwl]
  refine ite_congr rfl (fun _ => rfl) fun _ => ite_congr rfl (fun _ => hnext _ (by omega) _) fun _ =>
    ite_congr rfl (fun _ => rfl) fun _ => ite_congr rfl (fun _ => rfl) fun hlen => ?length
  rw [hbytes (i + 1) (by omega)]
  refine ite_congr rfl (fun _ => rfl) fun hbad => ite_congr rfl (fun _ => ?mss) fun _ => hnext _ (by omega) _
  refine ite_congr rfl (fun _ => rfl) fun hfour => ?_
  rw [hbytes (i + 2) (by omega), hbytes (i + 3) (by omega)]
  exact hnext _ (by omega) _

/-- A pass gives the accept verdict with a report, a reject with RES1 0, or what the rest of the scan gives. -/
theorem optRound_induction {P : Verdict × Word → Prop} {s : State} {f stop i : Nat}
    {next : Nat → Option (BitVec 16) → Verdict × Word} {mss : Option (BitVec 16)}
    (haccept : P (.accept, mssReport mss)) (hmal : P (.optMal, 0)) (hforb : P (.optForb, 0))
    (hnext : ∀ j m, P (next j m)) : P (optRound s f stop next i mss) := by
  unfold optRound
  have check {c : Prop} [Decidable c] {r r' : Verdict × Word} (hr : P r) (hr' : P r') : P (if c then r else r') := by
    split
    · exact hr
    · exact hr'
  exact check haccept <| check (hnext _ _) <| check hforb <| check hmal <| check hmal <|
    check (check hmal (hnext _ _)) (hnext _ _)

/-- Two scans with enough rounds left agree where the bytes and the whitelist bits they read agree; in particular the
bound of log 10 is large enough. -/
theorem optScan_congr {s s' : State} {f stop : Nat} (hbytes : ∀ j < stop, segRead s' j = segRead s j)
    (hwl : ∀ k, whitelisted s' f k = whitelisted s f k) {fuel fuel' i : Nat} (mss : Option (BitVec 16))
    (h : stop ≤ i + fuel) (h' : stop ≤ i + fuel') :
    optScan s' f stop fuel' i mss = optScan s f stop fuel i mss := by
  induction fuel generalizing fuel' i mss with
  | zero =>
    have hpast : stop ≤ i := h
    rw [optScan_past _ _ _ _ _ _ hpast, optScan_past _ _ _ _ _ _ hpast]
  | succ fuel ih =>
    obtain hpast | hlt := le_or_gt stop i
    · rw [optScan_past _ _ _ _ _ _ hpast, optScan_past _ _ _ _ _ _ hpast]
    · obtain ⟨k, rfl⟩ : ∃ k, fuel' = k + 1 := ⟨fuel' - 1, by omega⟩
      rw [optScan_succ_of_lt hlt, optScan_succ_of_lt hlt]
      exact optRound_congr hlt hbytes hwl fun j hj m => ih m (by omega) (by omega)

/-- The scan with its whole bound is one pass, then the scan with the whole bound of what is left. -/
theorem optScan_eq_optRound {s : State} {f stop i : Nat} {mss : Option (BitVec 16)} (h : i < stop) :
    optScan s f stop (stop - i) i mss = optRound s f stop (fun j => optScan s f stop (stop - j) j) i mss := by
  obtain ⟨k, hk⟩ : ∃ k, stop - i = k + 1 := ⟨stop - i - 1, by omega⟩
  rw [hk, optScan_succ_of_lt h]
  exact optRound_congr h (fun _ _ => rfl) (fun _ => rfl) fun j hj m =>
    optScan_congr (fun _ _ => rfl) (fun _ => rfl) m (by omega) (by omega)

/-- The verdicts of the scan (41_validator.md R126). -/
theorem optScan_verdict (s : State) (f stop fuel i : Nat) (mss : Option (BitVec 16)) :
    let r := optScan s f stop fuel i mss
    r.1 = .accept ∨ ((r.1 = .optMal ∨ r.1 = .optForb) ∧ r.2 = 0) := by
  induction fuel generalizing i mss with
  | zero => exact .inl rfl
  | succ fuel ih =>
    obtain hpast | hlt := le_or_gt stop i
    · rw [optScan_past _ _ _ _ _ _ hpast]
      exact .inl rfl
    · rw [optScan_succ_of_lt hlt]
      exact optRound_induction (P := fun r => r.1 = .accept ∨ ((r.1 = .optMal ∨ r.1 = .optForb) ∧ r.2 = 0))
        (.inl rfl) (.inr ⟨.inl rfl, rfl⟩) (.inr ⟨.inr rfl, rfl⟩) ih

/-! ## How the commands end -/

theorem exec_vseg_of_long {s : State} (h : s.cfg.segMax < s.vlen.toNat) :
    exec .vseg s = .next (raiseErr .arg 0x30 s) := congrArg Host.Outcome.next (if_pos h)

theorem exec_vseg_of_fits {s : State} (h : s.vlen.toNat ≤ s.cfg.segMax) :
    exec .vseg s = .next (finish 0x30 (verdictWord (vsegVerdict s))
      (if vsegVerdict s = .accept then vsegSummary s else 0) s) :=
  congrArg Host.Outcome.next (if_neg (Nat.not_lt.2 h))

/-- VSEG with a verdict other than accept (41_validator.md R116, R117). -/
theorem exec_vseg_of_reject {s : State} {v : Verdict} (h : s.vlen.toNat ≤ s.cfg.segMax) (hv : vsegVerdict s = v)
    (hne : v ≠ .accept) : exec .vseg s = .next (finish 0x30 (verdictWord v) 0 s) := by
  rw [exec_vseg_of_fits h, hv, if_neg hne]

theorem exec_vseg_of_accept {s : State} (h : s.vlen.toNat ≤ s.cfg.segMax) (hv : vsegVerdict s = .accept) :
    exec .vseg s = .next (finish 0x30 0 (vsegSummary s) s) := by
  rw [exec_vseg_of_fits h, hv, if_pos rfl]
  rfl

theorem exec_vopt_of_index {f : Nat} {s : State} (h : s.cfg.nFilt ≤ f) :
    exec (.vopt f) s = .next (raiseErr .index 0x31 s) := congrArg Host.Outcome.next (if_pos h)

theorem exec_vopt_of_long {f : Nat} {s : State} (hf : f < s.cfg.nFilt) (h : s.cfg.segMax < s.vlen.toNat) :
    exec (.vopt f) s = .next (raiseErr .arg 0x31 s) :=
  congrArg Host.Outcome.next ((if_neg (Nat.not_le.2 hf)).trans (if_pos h))

theorem exec_vopt_of_fits {f : Nat} {s : State} (hf : f < s.cfg.nFilt) (h : s.vlen.toNat ≤ s.cfg.segMax) :
    exec (.vopt f) s = .next (finish 0x31 (verdictWord (voptVerdict s f).1) (voptVerdict s f).2 s) :=
  congrArg Host.Outcome.next ((if_neg (Nat.not_le.2 hf)).trans (if_neg (Nat.not_lt.2 h)))

/-- A failed precheck gives VOPT's verdict (41_validator.md R120). -/
theorem voptVerdict_of_lengthChecks {s : State} {f : Nat} {v : Verdict} (h : lengthChecks s = some v) :
    voptVerdict s f = (v, 0) := by
  rw [voptVerdict, h]

/-- Past the prechecks the scan from index 20 to the end of the header gives VOPT's verdict. -/
theorem voptVerdict_past_length {s : State} {f : Nat} (h : lengthChecks s = none) :
    voptVerdict s f = optScan s f (headerLength s) (headerLength s - 20) 20 none := by
  rw [voptVerdict, h]

end Sys2Proof.Machine
end

section
/-! SUPPORT. Which part of the state VSEG and VOPT depend on (41_validator.md R104, R127): from two states that agree
on it, they end alike. -/

namespace Sys2Proof.Machine

/-- The states agree on the operands of VSEG and VOPT, SEGMEM below index `n` (41_validator.md R104, R127). -/
structure SameOperands (n : Nat) (s s' : State) : Prop where
  cfg : s'.cfg = s.cfg
  vlen : s'.vlen = s.vlen
  vctrl : s'.vctrl = s.vctrl
  srcAddr : s'.srcAddr = s.srcAddr
  dstAddr : s'.dstAddr = s.dstAddr
  flagRej0 : s'.flagRej0 = s.flagRej0
  flagRej1 : s'.flagRej1 = s.flagRej1
  wl : s'.wl = s.wl
  bytes : ∀ j < n, segRead s' j = segRead s j

/-- A command ends alike from two states: in the same error, or in success with the same results. -/
inductive SameEnding (opc : Byte) (s s' : State) : Result → Result → Prop
  | error (e : ErrCode) : SameEnding opc s s' (.next (raiseErr e opc s)) (.next (raiseErr e opc s'))
  | results (r0 r1 : Word) : SameEnding opc s s' (.next (finish opc r0 r1 s)) (.next (finish opc r0 r1 s'))

section
variable {n f : Nat} {s s' : State}

theorem SameOperands.segDoff_eq (h : SameOperands n s s') (hn : 20 ≤ n) : segDoff s' = segDoff s := by
  rw [segDoff, segDoff, h.bytes 12 (by omega)]

theorem SameOperands.headerLength_eq (h : SameOperands n s s') (hn : 20 ≤ n) : headerLength s' = headerLength s := by
  rw [headerLength, headerLength, h.segDoff_eq hn]

/-- The length checks read byte 12, and only past the minimum length. -/
theorem SameOperands.lengthChecks_eq (h : SameOperands n s s') (hn : 20 ≤ s.vlen.toNat → 20 ≤ n) :
    lengthChecks s' = lengthChecks s := by
  unfold lengthChecks
  rw [h.vlen]
  refine ite_congr rfl (fun _ => rfl) fun hlen => ?_
  have h20 := hn (by omega)
  rw [h.segDoff_eq h20, h.headerLength_eq h20]

theorem SameOperands.checksummed_eq (h : SameOperands n s s') (hn : s.vlen.toNat ≤ n) :
    checksummed s' = checksummed s := by
  have hsegment : segBytes s' s.vlen.toNat = segBytes s s.vlen.toNat :=
    List.map_congr_left fun j hj => h.bytes j (by have := List.mem_range.1 hj; omega)
  rw [checksummed, checksummed, pseudoHeader, pseudoHeader, h.vctrl, h.srcAddr, h.dstAddr, h.vlen, hsegment]

theorem SameOperands.segFlags_eq (h : SameOperands n s s') (hn : 20 ≤ n) : segFlags s' = segFlags s := by
  rw [segFlags, segFlags, h.bytes 13 (by omega)]

theorem SameOperands.flagRejected_eq (h : SameOperands n s s') (c : BitVec 6) :
    flagRejected s' c = flagRejected s c := by
  rw [flagRejected, flagRejected, h.flagRej0, h.flagRej1]

theorem SameOperands.whitelisted_eq (h : SameOperands n s s') (k : Byte) :
    whitelisted s' f k = whitelisted s f k := by
  rw [whitelisted, whitelisted, State.whitelist, State.whitelist, h.wl]

theorem SameOperands.vsegVerdict_eq (h : SameOperands n s s') (hn : 20 ≤ s.vlen.toNat → s.vlen.toNat ≤ n) :
    vsegVerdict s' = vsegVerdict s := by
  have hlength := h.lengthChecks_eq fun hlen => hlen.trans (hn hlen)
  unfold vsegVerdict
  rw [h.vctrl, hlength]
  refine ite_congr rfl (fun _ => rfl) fun _ => ite_congr rfl (fun _ => rfl) fun _ => ?_
  obtain ⟨-, hl⟩ | ⟨-, -, hl⟩ | ⟨hlen, -, -, hl⟩ := lengthChecks_cases s
  · rw [hl]
  · rw [hl]
  · have hvlen := hn hlen
    rw [hl, h.checksummed_eq hvlen, h.segFlags_eq (hlen.trans hvlen), h.flagRejected_eq]

theorem SameOperands.vsegSummary_eq (h : SameOperands n s s') (hn : 20 ≤ n) : vsegSummary s' = vsegSummary s := by
  rw [vsegSummary, vsegSummary, h.vlen, h.headerLength_eq hn, h.segDoff_eq hn, h.segFlags_eq hn]

/-- VSEG ends alike where the bytes below VLEN agree, and needs none of them when VLEN is below 20. -/
theorem SameOperands.exec_vseg (h : SameOperands n s s') (hn : 20 ≤ s.vlen.toNat → s.vlen.toNat ≤ n) :
    SameEnding 0x30 s s' (exec .vseg s) (exec .vseg s') := by
  obtain hfits | hlong := le_or_gt s.vlen.toNat s.cfg.segMax
  · have hsummary : (if vsegVerdict s = .accept then vsegSummary s' else 0) =
        if vsegVerdict s = .accept then vsegSummary s else 0 :=
      ite_congr rfl (fun hv => h.vsegSummary_eq ((le_vlen_of_accept hv).trans (hn (le_vlen_of_accept hv))))
        fun _ => rfl
    rw [exec_vseg_of_fits hfits, exec_vseg_of_fits (by rwa [h.vlen, h.cfg]), h.vsegVerdict_eq hn, hsummary]
    exact .results _ _
  · rw [exec_vseg_of_long hlong, exec_vseg_of_long (by rwa [h.vlen, h.cfg])]
    exact .error _

theorem SameOperands.voptVerdict_eq (h : SameOperands n s s') (hn : 20 ≤ s.vlen.toNat → 20 ≤ n)
    (hheader : lengthChecks s = none → headerLength s ≤ n) : voptVerdict s' f = voptVerdict s f := by
  have hlength := h.lengthChecks_eq hn
  cases hl : lengthChecks s with
  | some v => rw [voptVerdict_of_lengthChecks hl, voptVerdict_of_lengthChecks (hlength.trans hl)]
  | none =>
    obtain ⟨hlo, hhi⟩ := (lengthChecks_none_iff s).1 hl
    have hstop : headerLength s ≤ n := hheader hl
    have h20 : 20 ≤ n := by rw [headerLength] at hstop; omega
    rw [voptVerdict_past_length hl, voptVerdict_past_length (hlength.trans hl), h.headerLength_eq h20]
    exact optScan_congr (fun j hj => h.bytes j (hj.trans_le hstop)) h.whitelisted_eq none (by omega) (by omega)

/-- VOPT ends alike where the bytes of the header agree, and needs only byte 12 when a precheck fails. -/
theorem SameOperands.exec_vopt (h : SameOperands n s s') (hn : 20 ≤ s.vlen.toNat → 20 ≤ n)
    (hheader : lengthChecks s = none → headerLength s ≤ n) :
    SameEnding 0x31 s s' (exec (.vopt f) s) (exec (.vopt f) s') := by
  obtain hindex | hf := le_or_gt s.cfg.nFilt f
  · rw [exec_vopt_of_index hindex, exec_vopt_of_index (by rwa [h.cfg])]
    exact .error _
  · have hf' : f < s'.cfg.nFilt := by rwa [h.cfg]
    obtain hfits | hlong := le_or_gt s.vlen.toNat s.cfg.segMax
    · rw [exec_vopt_of_fits hf hfits, exec_vopt_of_fits hf' (by rwa [h.vlen, h.cfg]), h.voptVerdict_eq hn hheader]
      exact .results _ _
    · rw [exec_vopt_of_long hf hlong, exec_vopt_of_long hf' (by rwa [h.vlen, h.cfg])]
      exact .error _

/-- Both commands end alike where the bytes below VLEN agree (41_validator.md R104). -/
theorem SameOperands.exec_sval {i : Instr} (h : SameOperands n s s') (hi : i = .vseg ∨ ∃ f, i = .vopt f)
    (hn : 20 ≤ s.vlen.toNat → s.vlen.toNat ≤ n) : SameEnding i.opc s s' (exec i s) (exec i s') := by
  obtain rfl | ⟨f, rfl⟩ := hi
  · exact h.exec_vseg hn
  · refine h.exec_vopt (fun hlen => hlen.trans (hn hlen)) fun hl => ?_
    obtain ⟨hlo, hhi⟩ := (lengthChecks_none_iff s).1 hl
    exact hhi.trans (hn (by rw [headerLength] at hhi; omega))

/-- Other bytes of SEGMEM, or other draws, agree with `s` as far as the bytes read alike. -/
theorem sameOperands_withSegmem {m : List Host.Cell} {c : Nat}
    (h : ∀ j < n, segRead { s with segmem := m, resetCount := c } j = segRead s j) :
    SameOperands n s { s with segmem := m, resetCount := c } :=
  ⟨rfl, rfl, rfl, rfl, rfl, rfl, rfl, rfl, h⟩

/-- A command that ends alike keeps the difference in SEGMEM and draws and adds none. -/
theorem SameEnding.withSegmem {opc : Byte} {m : List Host.Cell} {c : Nat} {t : State} {r r' : Result}
    (h : SameEnding opc s { s with segmem := m, resetCount := c } r r') (hr : r = .next t) :
    r' = .next { t with segmem := m, resetCount := c } := by
  cases h with
  | error e => cases hr; rfl
  | results r0 r1 => cases hr; rfl

/-- No error code is OK (10_state.md R26). -/
theorem errCodeByte_ne_zero (e : ErrCode) : errCodeByte e ≠ 0 := by
  cases e <;> decide

/-- A command that ends alike gives the same status code and, on OK, the same results. -/
theorem SameEnding.results_eq {opc : Byte} {t t' : State} (h : SameEnding opc s s' (.next t) (.next t')) :
    t'.statusCode = t.statusCode ∧ (t.statusCode = 0 → t'.res0 = t.res0 ∧ t'.res1 = t.res1) := by
  cases h with
  | error e => exact ⟨rfl, fun hok => absurd hok (errCodeByte_ne_zero e)⟩
  | results r0 r1 => exact ⟨rfl, fun _ => ⟨rfl, rfl⟩⟩

end

end Sys2Proof.Machine
end

section
/-! The statements of the family of 41_validator.md. -/

namespace Sys2Proof.Machine

/-- Settles O30: the fold keeps the residue modulo 65535, and no positive sum folds to 0. -/
theorem checksumVerifies : Obligations.ChecksumVerifies := by
  refine ⟨fun d m hd => wordSum_eq_sum hd, fun n => ⟨?bound, foldSum_of_le, foldSum_of_gt⟩,
    fun d => ⟨csumOk_iff d, (csumOk_iff d).trans (foldSum_eq_max_iff _)⟩⟩
  case bound =>
    obtain ⟨hbound, -⟩ := foldSum_spec n
    exact hbound

/-- Settles O31, one address family at a time. -/
theorem checksummedStringLayout : Obligations.ChecksummedStringLayout := by
  intro s word segment pad
  refine ⟨fun haf => ?ipv4, fun haf => ?ipv6, checksummed_length_even s⟩
  case ipv4 => rw [checksummed, pseudoHeader_ipv4 haf]; rfl
  case ipv6 =>
    rw [checksummed, pseudoHeader_ipv6 haf, flatMap_bytesOf_bank, flatMap_bytesOf_bank]
    simp only [List.append_assoc]
    rfl

/-- Settles O32, check by check. -/
theorem vsegOutcome : Obligations.VsegOutcome := by
  refine ⟨by decide, onlyLegalWord_encode (i := .vseg) rfl, fun s => ⟨exec_vseg_of_long, fun hfits => ?_⟩⟩
  refine ⟨fun ha => ?addrState, fun ha => ⟨fun hd => ?dstType, fun hd => ⟨fun hlen => ?short, fun hlen =>
    ⟨fun hdoff => ?doff, fun hlo hhi => ?pastLength⟩⟩⟩⟩
  case addrState => exact exec_vseg_of_reject hfits (vsegVerdict_addrState ha) nofun
  case dstType => exact exec_vseg_of_reject hfits (vsegVerdict_dstType ha hd) nofun
  case short => exact exec_vseg_of_reject hfits (vsegVerdict_of_lengthChecks ha hd (lengthChecks_short hlen)) nofun
  case doff =>
    exact exec_vseg_of_reject hfits (vsegVerdict_of_lengthChecks ha hd (lengthChecks_doff hlen hdoff)) nofun
  case pastLength =>
    have hverdict := vsegVerdict_past_length ha hd ((lengthChecks_none_iff s).2 ⟨hlo, hhi⟩)
    refine ⟨fun hcsum => ?csum, fun hcsum => ?pastCsum⟩
    case csum => exact exec_vseg_of_reject hfits (hverdict.trans (if_pos hcsum)) nofun
    case pastCsum =>
      rw [if_neg (csum_check_passes hcsum), flagRejected_eq] at hverdict
      refine ⟨fun hflags => ?flags, fun hflags => ?accept⟩
      case flags => exact exec_vseg_of_reject hfits (hverdict.trans (if_pos hflags)) nofun
      case accept =>
        exact exec_vseg_of_accept hfits (hverdict.trans (if_neg (Bool.eq_false_iff.1 hflags)))

/-- Settles O33: the bound on the rounds never ends the scan, so each round is the rule's body. -/
theorem optionScanFollowsLoop : Obligations.OptionScanFollowsLoop := by
  refine ⟨⟨rfl, rfl, rfl⟩, fun f s hf hfits hlo hhi => ?start, fun s f stop i mss => ⟨fun hpast => ?past,
    fun hlt => ?round⟩⟩
  case start =>
    have hlength : lengthChecks s = none := (lengthChecks_none_iff s).2 ⟨by rw [segDoff]; omega, hhi⟩
    refine ⟨_, exec_vopt_of_fits hf hfits, ?_⟩
    rw [voptVerdict_past_length hlength]
    exact ⟨rfl, rfl⟩
  case past => exact optScan_past s f stop _ i mss hpast
  case round => exact optScan_eq_optRound hlt

/-- Settles O34, check by check. -/
theorem voptOutcome : Obligations.VoptOutcome := by
  refine ⟨fun f hf => ?word, fun w s hopc hrsv => ?reserved, fun f s => ⟨exec_vopt_of_index, fun hf =>
    ⟨exec_vopt_of_long hf, fun hfits => ⟨fun hlen => ?short, fun hlen =>
      ⟨fun hdoff => ?doff, fun hlo hhi => ?scan⟩⟩⟩⟩⟩
  case word => exact encode_eq_ofNat (.vopt f) hf ▸ decode_encode_vopt hf
  case reserved =>
    have hopc : opcField w = 0x31 := hopc
    rw [runCommand_of_rsv s hrsv, hopc]
    rfl
  case short =>
    rw [exec_vopt_of_fits hf hfits, voptVerdict_of_lengthChecks (lengthChecks_short hlen)]
    rfl
  case doff =>
    rw [exec_vopt_of_fits hf hfits, voptVerdict_of_lengthChecks (lengthChecks_doff hlen hdoff)]
    rfl
  case scan =>
    refine ⟨?_, ?verdict⟩
    · rw [exec_vopt_of_fits hf hfits, voptVerdict_past_length ((lengthChecks_none_iff s).2 ⟨hlo, hhi⟩)]
      rfl
    case verdict =>
      obtain h | ⟨h | h, hzero⟩ := optScan_verdict s f (headerLength s) (headerLength s - 20) 20 none
      · exact .inl (congrArg verdictWord h)
      · exact .inr ⟨.inl (congrArg verdictWord h), hzero⟩
      · exact .inr ⟨.inr (congrArg verdictWord h), hzero⟩

/-- Settles O36: where the bytes below the bound agree, the command ends alike. -/
theorem svalReadsBelowVlen : Obligations.SvalReadsBelowVlen := by
  intro i s t m c hexec agree same stop
  refine ⟨fun hi hagree => ?below, fun hi hlen => ?short, fun hi hlo hhi hagree => ?header⟩
  case below => exact ((sameOperands_withSegmem hagree).exec_sval hi fun _ => le_rfl).withSegmem hexec
  case short =>
    have hnone : ∀ j < 0, segRead { s with segmem := m, resetCount := c } j = segRead s j := nofun
    exact ((sameOperands_withSegmem hnone).exec_sval hi fun hlo => absurd hlen (Nat.not_lt.2 hlo)).withSegmem hexec
  case header =>
    obtain ⟨f, rfl⟩ := hi
    exact ((sameOperands_withSegmem hagree).exec_vopt (fun _ => hlo) fun _ => le_rfl).withSegmem hexec

/-- Settles O37, from the ways a command can end. -/
theorem svalIsStateless : Obligations.SvalIsStateless := by
  refine fun i hi => ⟨fun s => ?frame,
    fun s s' t t' hcfg hvlen hvctrl hsrc hdst hrej0 hrej1 hwl hbytes ht ht' => ?inputs⟩
  case frame =>
    obtain ⟨t, ht, houtcome⟩ := exists_exec_outcome i s
    rw [ht]
    cases houtcome with
    | error e => exact ⟨errCodeByte e, s.res0, s.res1, rfl⟩
    | statusOnly hnop => exact ⟨0x00, s.res0, s.res1, rfl⟩
    | results r0 r1 => exact ⟨0x00, r0, r1, rfl⟩
    | slot u r0 r1 htracker => obtain rfl | ⟨f, rfl⟩ := hi <;> cases htracker
  case inputs =>
    have hsame : SameOperands s.vlen.toNat s s' :=
      ⟨hcfg, hvlen, hvctrl, hsrc, hdst, hrej0, hrej1, hwl, fun j _ => hbytes j⟩
    have hending := hsame.exec_sval hi fun _ => le_rfl
    rw [ht, ht'] at hending
    exact hending.results_eq

/-- Settles O38: the map at reset is one 64-bit constant, read at each of the 64 combinations. -/
theorem defaultRejectedFlags : Obligations.DefaultRejectedFlags := by
  intro p
  simp only [flagRejected_resetFor]
  exact ⟨by decide, by decide, by decide, rfl, rfl⟩

end Sys2Proof.Machine
end

section
/-! SUPPORT. Slots (10_state.md R33, R36): free_front, the acknowledgement classes, and the slot invariants under each
update an ABT command makes (42_acktracker.md R137 to R150). -/

namespace Sys2Proof.Machine

/-! ## free_front -/

theorem minWord_of_le {a b : Word} (h : a ≤ b) : minWord a b = a := if_pos h

theorem minWord_of_lt {a b : Word} (h : b < a) : minWord a b = b := if_neg (BitVec.not_le.2 h)

/-- The smaller of two words is fixed by its value. -/
theorem eq_minWord {a b m : Word} (h : m.toNat = min a.toNat b.toNat) : m = minWord a b :=
  BitVec.eq_of_toNat_eq (h.trans (minWord_toNat a b).symm)

/-- Freeing bytes in flight moves UNA up and SEND down alike, so NXT stays (42_acktracker.md R137). -/
theorem freeFront_nxt_of_le {n : Word} {t : Slot} (h : n ≤ t.send) (hnxt : t.nxt = t.una + t.send) :
    (freeFront n t).nxt = t.nxt := by
  rw [freeFront_nxt, minWord_of_le h, hnxt, add_assoc, add_sub_cancel]

/-- Freeing beyond the bytes in flight leaves none in flight, so NXT is UNA. -/
theorem freeFront_nxt_of_lt {n : Word} {t : Slot} (h : t.send < n) :
    (freeFront n t).nxt = (freeFront n t).una := by
  rw [freeFront_nxt, minWord_of_lt h, sub_self, add_zero, freeFront_una]

/-- free_front subtracts the same from both sides of an order, each side no further than to 0. -/
theorem sub_minWord_mono {n a b : Word} (h : a ≤ b) : a - minWord n a ≤ b - minWord n b := by
  have ha := minWord_toNat n a
  have hb := minWord_toNat n b
  rw [BitVec.le_def, BitVec.toNat_sub_of_le (BitVec.le_def.2 (by omega)),
    BitVec.toNat_sub_of_le (BitVec.le_def.2 (by omega))]
  rw [BitVec.le_def] at h
  omega

/-! ## Acknowledgement classes -/

theorem ackClass_eq_new_iff (t : Slot) (a : Word) :
    ackClass t a = .new ↔ isLower t.una a = true ∧ isLowerOrEqual a t.nxt = true := by
  rw [ackClass, ← Bool.and_eq_true]
  split
  next hnew => exact iff_of_true rfl hnew
  next hnew => split <;> exact iff_of_false nofun hnew

theorem ackClass_of_not_new {t : Slot} {a : Word}
    (h : ¬(isLower t.una a = true ∧ isLowerOrEqual a t.nxt = true)) :
    ackClass t a = if isLowerOrEqual a t.una then .dup else .future := by
  rw [ackClass, if_neg (by rwa [Bool.and_eq_true])]

theorem ackClass_eq_dup_iff (t : Slot) (a : Word) :
    ackClass t a = .dup ↔
      ¬(isLower t.una a = true ∧ isLowerOrEqual a t.nxt = true) ∧ isLowerOrEqual a t.una = true := by
  by_cases hnew : isLower t.una a = true ∧ isLowerOrEqual a t.nxt = true
  · simp [(ackClass_eq_new_iff t a).2 hnew, hnew]
  · rw [ackClass_of_not_new hnew]
    cases isLowerOrEqual a t.una <;> simp [hnew]

theorem ackClass_eq_future_iff (t : Slot) (a : Word) :
    ackClass t a = .future ↔
      ¬(isLower t.una a = true ∧ isLowerOrEqual a t.nxt = true) ∧ isLowerOrEqual a t.una = false := by
  by_cases hnew : isLower t.una a = true ∧ isLowerOrEqual a t.nxt = true
  · simp [(ackClass_eq_new_iff t a).2 hnew, hnew]
  · rw [ackClass_of_not_new hnew]
    cases isLowerOrEqual a t.una <;> simp [hnew]

/-- UNA itself acknowledges nothing new. -/
theorem ackClass_of_eq_una {t : Slot} {a : Word} (h : t.una = a) : ackClass t a = .dup := by
  have hself : distance t.una a = 0 := (distance_eq_zero_iff _ _).2 h
  have hself' : distance a t.una = 0 := (distance_eq_zero_iff _ _).2 h.symm
  rw [ackClass_eq_dup_iff, isLower_iff, isLowerOrEqual_iff a t.una, hself, hself']
  simp

/-! ## The slot invariants -/

theorem isLowerOrEqual_iff_toNat (a b : Word) : isLowerOrEqual a b = true ↔ (distance a b).toNat < 2 ^ 31 := by
  rw [isLowerOrEqual_iff, BitVec.toInt_eq_toNat_cond]
  split <;> omega

/-- A ring sum is a ring index (10_state.md R36 (I5)). -/
theorem ringAdd_inRing (cap h n : Word) :
    (cap ≠ 0 → ringAdd cap h n < cap) ∧ (cap = 0 → ringAdd cap h n = 0) :=
  ⟨ringAdd_lt h n, by rintro rfl; exact ringAdd_zero h n⟩

/-- The released slot has the invariants. -/
theorem Slot.free_inv (capMax : Nat) : Slot.free.Inv capMax :=
  ⟨⟨by decide, Nat.zero_le _⟩, by decide, by decide, by decide, by decide, fun _ => rfl⟩

/-- An active slot has the invariants as soon as it has the orders of its counts, the sum that gives NXT, and a ring
index: with a capacity below 2^31, UNA is then at or below NXT (10_state.md R36). -/
theorem Slot.inv_of_active {capMax : Nat} {t : Slot} (hmax : capMax ≤ 2 ^ 31 - 1) (ha : t.active = true)
    (hcap : t.used ≤ t.cap ∧ t.cap.toNat ≤ capMax) (horder : t.curr ≤ t.send ∧ t.send ≤ t.used)
    (hnxt : t.nxt = t.una + t.send) (hhead : (t.cap ≠ 0 → t.head < t.cap) ∧ (t.cap = 0 → t.head = 0)) :
    t.Inv capMax := by
  refine ⟨hcap, horder, hnxt, ?_, hhead, fun h => absurd (ha.symm.trans h) nofun⟩
  have hdist : distance t.una t.nxt = t.send := by rw [hnxt, distance, add_sub_cancel_left]
  simp only [BitVec.le_def] at hcap horder
  rw [isLowerOrEqual_iff_toNat, hdist]
  omega

section
variable {capMax : Nat} {t : Slot}

/-- TINIT's slot: all counts 0 and UNA at NXT (42_acktracker.md R138). -/
theorem Slot.inv_tinit (hmax : capMax ≤ 2 ^ 31 - 1) {cap : Word} (hcap : cap.toNat ≤ capMax) (iss : Word) :
    Slot.Inv capMax
      { active := true, cap := cap, used := 0, send := 0, curr := 0,
        una := iss, nxt := iss, start := 0, head := 0 } :=
  Slot.inv_of_active hmax rfl ⟨Fin.zero_le _, hcap⟩ ⟨BitVec.le_refl _, BitVec.le_refl _⟩
    (BitVec.add_zero iss).symm ⟨(BitVec.pos_iff_ne_zero cap).2, fun _ => rfl⟩

/-- SEND is at most the capacity, so below 2^31. -/
theorem Slot.Inv.send_lt (ht : t.Inv capMax) (hmax : capMax ≤ 2 ^ 31 - 1) : t.send.toNat < 2 ^ 31 := by
  obtain ⟨⟨hused, hcap⟩, ⟨-, hsend⟩, -⟩ := ht
  rw [BitVec.le_def] at hused hsend
  omega

variable (hmax : capMax ≤ 2 ^ 31 - 1) (ht : t.Inv capMax) (ha : t.active = true)
include hmax ht ha

/-- TQUEUE: no more is accepted than is free. -/
theorem Slot.Inv.tqueue {acc : Word} (hacc : acc ≤ t.cap - t.used) :
    Slot.Inv capMax { t with used := t.used + acc } := by
  obtain ⟨⟨hused, hcap⟩, ⟨hcurr, hsend⟩, hnxt, -, hhead, -⟩ := ht
  refine Slot.inv_of_active hmax ha ⟨?_, hcap⟩ ⟨hcurr, ?_⟩ hnxt hhead <;> dsimp only <;> bv_omega

/-- TMARK: no more is marked than is unsent. -/
theorem Slot.Inv.tmark {n : Word} (hn : n ≤ t.used - t.send) :
    Slot.Inv capMax { t with send := t.send + n, curr := t.curr + n, nxt := t.nxt + n } := by
  obtain ⟨⟨hused, hcap⟩, ⟨hcurr, hsend⟩, hnxt, -, hhead, -⟩ := ht
  refine Slot.inv_of_active hmax ha ⟨hused, hcap⟩ ⟨?_, ?_⟩ ?_ hhead <;> dsimp only <;> bv_omega

/-- free_front of no more than is queued. -/
theorem Slot.Inv.freeFront {n : Word} (hn : n ≤ t.used) : (Machine.freeFront n t).Inv capMax := by
  obtain ⟨⟨hused, hcap⟩, ⟨hcurr, hsend⟩, -, -, -, -⟩ := ht
  refine Slot.inv_of_active hmax ha ⟨?_, hcap⟩ ⟨sub_minWord_mono hcurr, ?_⟩ rfl (ringAdd_inRing _ _ _)
  · rw [freeFront_used, freeFront_cap]
    bv_omega
  · have h := sub_minWord_mono (n := n) hsend
    rwa [minWord_of_le hn] at h

/-- TRTX: a round begins with nothing sent in it. -/
theorem Slot.Inv.trtx : Slot.Inv capMax { t with curr := 0 } := by
  obtain ⟨hcap, ⟨-, hsend⟩, hnxt, -, hhead, -⟩ := ht
  exact Slot.inv_of_active hmax ha hcap ⟨Fin.zero_le _, hsend⟩ hnxt hhead

/-- TRMARK: no more is marked than is in flight and not yet marked in the round. -/
theorem Slot.Inv.trmark {n : Word} (hn : n ≤ t.send - t.curr) :
    Slot.Inv capMax { t with curr := t.curr + n } := by
  obtain ⟨hcap, ⟨hcurr, hsend⟩, hnxt, -, hhead, -⟩ := ht
  refine Slot.inv_of_active hmax ha hcap ⟨?_, hsend⟩ hnxt hhead
  dsimp only
  bv_omega

end

/-- A NEW acknowledgement number splits the bytes in flight in two: those up to it, at least one, and those beyond
(42_acktracker.md R146). -/
theorem newAck_splits_send {t : Slot} {a : Word} (hsend : t.send.toNat < 2 ^ 31) (hnxt : t.nxt = t.una + t.send)
    (hlow : isLower t.una a = true) (hle : isLowerOrEqual a t.nxt = true) :
    1 ≤ (a - t.una).toNat ∧ (a - t.una).toNat ≤ t.send.toNat ∧
      (distance t.una a).toNat + (distance a t.nxt).toNat = t.send.toNat := by
  have hrest : distance a t.nxt = t.send - distance t.una a := by rw [hnxt, distance, distance]; ring
  rw [isLower_iff_toNat] at hlow
  rw [isLowerOrEqual_iff_toNat, hrest, BitVec.toNat_sub] at hle
  rw [hrest, BitVec.toNat_sub t.send, show a - t.una = distance t.una a from rfl]
  omega

/-- A NEW acknowledgement frees bytes that are queued. -/
theorem newAck_le_used {capMax : Nat} {t : Slot} {a : Word} (hmax : capMax ≤ 2 ^ 31 - 1) (ht : t.Inv capMax)
    (hnew : ackClass t a = .new) : a - t.una ≤ t.used := by
  obtain ⟨hlow, hle⟩ := (ackClass_eq_new_iff t a).1 hnew
  have hsend := ht.send_lt hmax
  obtain ⟨-, ⟨-, hused⟩, hnxt, -⟩ := ht
  obtain ⟨-, hd, -⟩ := newAck_splits_send hsend hnxt hlow hle
  exact BitVec.le_trans (BitVec.le_def.2 hd) hused

end Sys2Proof.Machine
end

section
/-! SUPPORT. The words of the ABT commands (30_encoding.md R75) and their outcomes, check by check (42_acktracker.md
R131, R132, R138 to R150). -/

namespace Sys2Proof.Machine

/-! ## Words -/

/-- The row of an ABT command fixes OPC and RSV and leaves IDX free. -/
theorem exists_tracker_row {i : Instr} (hi : isTracker i = true) :
    ∃ r ∈ opcodeMap, r.mask = 0xFFFF00FF ∧ r.pattern = i.opc.setWidth 32 ∧ r.build i.index = i := by
  cases i with
  | tinit n => exact ⟨opcodeMap[4], List.getElem_mem _, rfl, rfl, rfl⟩
  | trel n => exact ⟨opcodeMap[5], List.getElem_mem _, rfl, rfl, rfl⟩
  | tqueue n => exact ⟨opcodeMap[6], List.getElem_mem _, rfl, rfl, rfl⟩
  | tmark n => exact ⟨opcodeMap[7], List.getElem_mem _, rfl, rfl, rfl⟩
  | tfree n => exact ⟨opcodeMap[8], List.getElem_mem _, rfl, rfl, rfl⟩
  | tack n => exact ⟨opcodeMap[9], List.getElem_mem _, rfl, rfl, rfl⟩
  | trtx n => exact ⟨opcodeMap[10], List.getElem_mem _, rfl, rfl, rfl⟩
  | trmark n => exact ⟨opcodeMap[11], List.getElem_mem _, rfl, rfl, rfl⟩
  | _ => cases hi

/-- Masking IDX out of a command's word leaves its OPC. -/
theorem encode_and_mask (i : Instr) : encode i &&& 0xFFFF00FF = i.opc.setWidth 32 := by
  have hmask : (0xFFFF00FF : Word) = BitVec.allOnes 16 ++ 0#8 ++ BitVec.allOnes 8 := by decide
  rw [encode, hmask, BitVec.and_append, BitVec.and_append, BitVec.and_allOnes, BitVec.and_zero, BitVec.and_allOnes,
    BitVec.setWidth_eq_append (by decide)]
  rfl

/-- The word OPC + 256·IDX of an ABT command decodes to the command. -/
theorem decode_trackerWord {i : Instr} (hi : isTracker i = true) (hidx : i.index < 256) :
    decode (BitVec.ofNat 32 (i.opc.toNat + 256 * i.index)) = .command i := by
  obtain ⟨r, hr, hmask, hpattern, hbuild⟩ := exists_tracker_row hi
  have hfield : idxField (encode i) = i.index := (Laws.encode_fields i.index i.opc).2.2 hidx
  rw [← encode_eq_ofNat i hidx, decode_of_covers hr (by rw [hmask, hpattern, encode_and_mask]), hfield, hbuild]

/-! ## The common checks -/

/-- Every ABT command but TINIT makes the common checks first (42_acktracker.md R131, R132). -/
theorem exec_tracker_checks {i : Instr} (hi : isTracker i = true) (hne : ∀ n, i ≠ .tinit n) (s : State) :
    ∃ k, exec i s = .next (withActiveSlot i.opc i.index s k) := by
  cases i with
  | tinit n => exact absurd rfl (hne n)
  | trel | tqueue | tmark | tfree | tack | trtx | trmark => exact ⟨_, rfl⟩
  | _ => cases hi

/-- An index past the slots is ERR_INDEX, whatever the operands (R131). -/
theorem exec_tracker_of_index {i : Instr} {s : State} (hi : isTracker i = true) (hn : s.cfg.nTrk ≤ i.index) :
    exec i s = .next { s with statusCode := 0x02, statusLastOpc := i.opc } := by
  by_cases hinit : ∃ n, i = .tinit n
  · obtain ⟨n, rfl⟩ := hinit
    exact congrArg Host.Outcome.next (if_pos hn)
  · obtain ⟨k, hk⟩ := exec_tracker_checks hi (not_exists.1 hinit) s
    rw [hk, withActiveSlot_of_index k hn]
    rfl

/-- An inactive slot is ERR_STATE for every ABT command but TINIT (R132). -/
theorem exec_tracker_of_inactive {i : Instr} {s : State} {t : Slot} (hi : isTracker i = true)
    (hne : ∀ n, i ≠ .tinit n) (hn : i.index < s.cfg.nTrk) (hslot : s.slots[i.index]? = some t)
    (ha : t.active = false) : exec i s = .next { s with statusCode := 0x03, statusLastOpc := i.opc } := by
  obtain ⟨k, hk⟩ := exec_tracker_checks hi hne s
  rw [hk, withActiveSlot_of_inactive k hn (by rwa [State.slot_of_getElem? hslot])]
  rfl

/-- Past the common checks the rest of a command gets the slot. -/
theorem withActiveSlot_at {opc : Byte} {n : Nat} {s : State} {t : Slot} (k : Slot → State)
    (hn : n < s.cfg.nTrk) (hslot : s.slots[n]? = some t) (ha : t.active = true) :
    withActiveSlot opc n s k = k t := by
  have ht := State.slot_of_getElem? hslot
  rw [withActiveSlot_of_active k hn (ht.symm ▸ ha), ht]

/-! ## TINIT -/

section
variable {n : Nat} {s : State} {t : Slot} (hn : n < s.cfg.nTrk) (hslot : s.slots[n]? = some t)
include hn hslot

/-- On an active slot TINIT ends in ERR_STATE, whatever its capacity operand (42_acktracker.md R138). -/
theorem exec_tinit_of_active (ha : t.active = true) :
    exec (.tinit n) s = .next { s with statusCode := 0x03, statusLastOpc := 0x20 } := by
  have hactive : (s.slot n).active = true := by rwa [State.slot_of_getElem? hslot]
  exact congrArg Host.Outcome.next ((if_neg (Nat.not_le.2 hn)).trans (if_pos hactive))

/-- On an inactive slot the capacity operand decides. -/
theorem exec_tinit_of_inactive (ha : t.active = false) :
    exec (.tinit n) s = .next
      (if s.cfg.capMax < s.opb.toNat then raiseErr .arg 0x20 s
        else finishSlot 0x20 n
          { active := true, cap := s.opb, used := 0, send := 0, curr := 0,
            una := s.opa, nxt := s.opa, start := 0, head := 0 }
          s.opb 0 s) := by
  have hactive : ¬(s.slot n).active = true := by simp [State.slot_of_getElem? hslot, ha]
  exact congrArg Host.Outcome.next ((if_neg (Nat.not_le.2 hn)).trans (if_neg hactive))

end

/-! ## The other commands, on an active slot: the common checks pass, and what is left of the command is its own -/

section
variable {n : Nat} {s : State} {t : Slot} (hn : n < s.cfg.nTrk) (hslot : s.slots[n]? = some t)
  (ha : t.active = true)
include hn hslot ha

theorem exec_trel_at : exec (.trel n) s = .next (finishSlot 0x21 n Slot.free t.used t.send s) :=
  congrArg Host.Outcome.next (withActiveSlot_at _ hn hslot ha)

theorem exec_tqueue_at :
    exec (.tqueue n) s = .next
      (finishSlot 0x22 n { t with used := t.used + minWord s.opa (t.cap - t.used) } (minWord s.opa (t.cap - t.used))
        (t.cap - (t.used + minWord s.opa (t.cap - t.used))) s) :=
  congrArg Host.Outcome.next (withActiveSlot_at _ hn hslot ha)

theorem exec_tmark_at :
    exec (.tmark n) s = .next
      (if s.opa > t.used - t.send then raiseErr .precond 0x23 s
        else finishSlot 0x23 n { t with send := t.send + s.opa, curr := t.curr + s.opa, nxt := t.nxt + s.opa }
          (t.nxt + s.opa) (t.used - (t.send + s.opa)) s) :=
  congrArg Host.Outcome.next (withActiveSlot_at _ hn hslot ha)

theorem exec_tfree_at :
    exec (.tfree n) s = .next
      (if s.opa > t.used then raiseErr .precond 0x24 s
        else finishSlot 0x24 n (freeFront s.opa t) s.opa (t.cap - (t.used - s.opa)) s) :=
  congrArg Host.Outcome.next (withActiveSlot_at _ hn hslot ha)

theorem exec_tack_new (hclass : ackClass t s.opa = .new) :
    exec (.tack n) s = .next
      (finishSlot 0x25 n (freeFront (s.opa - t.una) t) 1 (s.opa - t.una) s) := by
  refine congrArg Host.Outcome.next ((withActiveSlot_at _ hn hslot ha).trans ?_)
  rw [hclass]
  rfl

theorem exec_tack_dup (hclass : ackClass t s.opa = .dup) : exec (.tack n) s = .next (finish 0x25 2 0 s) := by
  refine congrArg Host.Outcome.next ((withActiveSlot_at _ hn hslot ha).trans ?_)
  rw [hclass]
  rfl

theorem exec_tack_future (hclass : ackClass t s.opa = .future) :
    exec (.tack n) s = .next (finish 0x25 3 0 s) := by
  refine congrArg Host.Outcome.next ((withActiveSlot_at _ hn hslot ha).trans ?_)
  rw [hclass]
  rfl

theorem exec_trtx_at : exec (.trtx n) s = .next (finishSlot 0x26 n { t with curr := 0 } t.send t.una s) :=
  congrArg Host.Outcome.next (withActiveSlot_at _ hn hslot ha)

theorem exec_trmark_at :
    exec (.trmark n) s = .next
      (if s.opa > t.send - t.curr then raiseErr .precond 0x27 s
        else finishSlot 0x27 n { t with curr := t.curr + s.opa } (t.curr + s.opa) (t.send - (t.curr + s.opa)) s) :=
  congrArg Host.Outcome.next (withActiveSlot_at _ hn hslot ha)

end

/-! ## Refused counts -/

/-- A count above its bound, as the statements have the bound: on unsigned numbers. -/
theorem if_exceeds {α : Type} {a b : Word} {x y : α} (h : b.toNat < a.toNat) : (if a > b then x else y) = x :=
  if_pos (BitVec.lt_def.2 h)

/-- A count within its bound. -/
theorem if_within {α : Type} {a b : Word} {x y : α} (h : a.toNat ≤ b.toNat) : (if a > b then x else y) = y :=
  if_neg fun hlt => absurd (BitVec.lt_def.1 hlt) (Nat.not_lt.2 h)

end Sys2Proof.Machine
end

section
/-! SUPPORT. The invariant of 10_state.md section 5 under every command, every host event and every run. -/

namespace Sys2Proof.Machine

/-! ## The slots under a command -/

/-- The slot part of `State.Inv`: every slot has the slot invariants (10_state.md R36). -/
def State.SlotsInv (s : State) : Prop := ∀ t ∈ s.slots, t.Inv s.cfg.capMax

section
variable {s : State} (hs : s.SlotsInv)
include hs

/-- A lookup gives a slot with the invariants; beyond the list it gives the free one. -/
theorem State.SlotsInv.slot (n : Nat) : (s.slot n).Inv s.cfg.capMax := by
  cases hslot : s.slots[n]? with
  | some t =>
    rw [State.slot_of_getElem? hslot]
    exact hs t (List.mem_of_getElem? hslot)
  | none =>
    rw [State.slot, List.getD_eq_getElem?_getD, hslot]
    exact Slot.free_inv _

theorem State.SlotsInv.raiseErr (e : ErrCode) (opc : Byte) : (Machine.raiseErr e opc s).SlotsInv := hs

theorem State.SlotsInv.finish (opc : Byte) (r0 r1 : Word) : (Machine.finish opc r0 r1 s).SlotsInv := hs

/-- Writing a slot that has the invariants keeps them. -/
theorem State.SlotsInv.finishSlot {u : Slot} (hu : u.Inv s.cfg.capMax) (opc : Byte) (n : Nat) (r0 r1 : Word) :
    (Machine.finishSlot opc n u r0 r1 s).SlotsInv := by
  intro v hv
  obtain hv | rfl := List.mem_or_eq_of_mem_set hv
  · exact hs v hv
  · exact hu

/-- Past the common checks the rest of a command has an active slot with the invariants. -/
theorem State.SlotsInv.withActiveSlot {opc : Byte} {n : Nat} {k : Slot → State}
    (hk : ∀ t : Slot, t.Inv s.cfg.capMax → t.active = true → (k t).SlotsInv) :
    (Machine.withActiveSlot opc n s k).SlotsInv := by
  obtain ⟨-, h⟩ | ⟨-, -, h⟩ | ⟨-, ha, h⟩ := withActiveSlot_cases (opc := opc) (n := n) (s := s) (k := k) rfl
  · exact h ▸ hs.raiseErr .index opc
  · exact h ▸ hs.raiseErr .state opc
  · exact h ▸ hk _ (hs.slot n) ha

/-- A check before an update, which may use that the check passed. -/
theorem State.SlotsInv.check {e : ErrCode} {opc : Byte} {c : Prop} [Decidable c] {t : State}
    (ht : ¬c → t.SlotsInv) : (if c then Machine.raiseErr e opc s else t).SlotsInv := by
  split
  · exact hs.raiseErr e opc
  · exact ht ‹_›

end

/-- What every command leaves: the configuration, the number of slots, the whitelists and SEGMEM. -/
theorem CommandOutcome.frame {i : Instr} {s t : State} (h : CommandOutcome i s t) :
    t.cfg = s.cfg ∧ t.slots.length = s.slots.length ∧ t.wl = s.wl ∧ t.segmem = s.segmem := by
  cases h with
  | error | statusOnly | results => exact ⟨rfl, rfl, rfl, rfl⟩
  | slot u r0 r1 _ => exact ⟨rfl, List.length_set, rfl, rfl⟩

/-- A command of another unit than ABT keeps the slots' invariants, as it writes no slot. -/
theorem CommandOutcome.slotsInv {i : Instr} {s t : State} (h : CommandOutcome i s t) (hi : isTracker i = false)
    (hs : s.SlotsInv) : t.SlotsInv := by
  cases h with
  | error | statusOnly | results => exact hs
  | slot u r0 r1 htracker => exact absurd (hi.symm.trans htracker) nofun

/-- Every command keeps the slots' invariants: the preconditions it checks are what its update needs
(42_acktracker.md R152). -/
theorem exec_keeps_slotsInv {i : Instr} {s t : State} (hmax : s.cfg.capMax ≤ 2 ^ 31 - 1) (hs : s.SlotsInv)
    (h : exec i s = .next t) : t.SlotsInv := by
  cases i with
  | nop | slt | sle | sdist | vseg | vopt => exact (exec_outcome h).slotsInv rfl hs
  | tinit n =>
    cases h
    exact hs.check fun _ => hs.check fun _ => hs.check fun hcap =>
      hs.finishSlot (Slot.inv_tinit hmax (Nat.not_lt.1 hcap) _) _ _ _ _
  | trel n =>
    cases h
    exact hs.withActiveSlot fun u _ _ => hs.finishSlot (Slot.free_inv _) _ _ _ _
  | tqueue n =>
    cases h
    refine hs.withActiveSlot fun u hu ha => hs.finishSlot (hu.tqueue hmax ha ?_) _ _ _ _
    rw [BitVec.le_def, minWord_toNat]
    exact Nat.min_le_right _ _
  | tmark n =>
    cases h
    exact hs.withActiveSlot fun u hu ha => hs.check fun hn =>
      hs.finishSlot (hu.tmark hmax ha (BitVec.not_lt.1 hn)) _ _ _ _
  | tfree n =>
    cases h
    exact hs.withActiveSlot fun u hu ha => hs.check fun hn =>
      hs.finishSlot (hu.freeFront hmax ha (BitVec.not_lt.1 hn)) _ _ _ _
  | tack n =>
    cases h
    refine hs.withActiveSlot fun u hu ha => ?_
    cases hclass : ackClass u s.opa with
    | new => exact hs.finishSlot (hu.freeFront hmax ha (newAck_le_used hmax hu hclass)) _ _ _ _
    | dup | future => exact hs.finish _ _ _
  | trtx n =>
    cases h
    exact hs.withActiveSlot fun u hu ha => hs.finishSlot (hu.trtx hmax ha) _ _ _ _
  | trmark n =>
    cases h
    exact hs.withActiveSlot fun u hu ha => hs.check fun hn =>
      hs.finishSlot (hu.trmark hmax ha (BitVec.not_lt.1 hn)) _ _ _ _

/-! ## The whole invariant -/

/-- Every command keeps the invariant. -/
theorem exec_keeps_inv {i : Instr} {s t : State} (hs : s.Inv) (h : exec i s = .next t) : t.Inv := by
  obtain ⟨hlegal, hslots, hwl, hslotsInv, -, hmem, hwithin⟩ := hs
  have ⟨_, _, ⟨_, hmax⟩, _⟩ := hlegal
  have houtcome := exec_outcome h
  obtain ⟨hcfg, hlen, hwl', hmem'⟩ := houtcome.frame
  obtain ⟨-, hcode⟩ := houtcome.status_written
  exact ⟨by rwa [hcfg], by rwa [hlen, hcfg], by rwa [hwl', hcfg], exec_keeps_slotsInv hmax hslotsInv h, hcode,
    by rwa [hmem'], by rwa [hmem', hcfg]⟩

/-- A CMD write keeps the invariant, legal word or not. -/
theorem runCommand_keeps_inv {w : Word} {s t : State} (hs : s.Inv) (h : runCommand w s = .next t) : t.Inv := by
  cases hdecode : decode w with
  | command i =>
    rw [runCommand, hdecode] at h
    exact exec_keeps_inv hs h
  | illegal why =>
    rw [runCommand_illegal s hdecode] at h
    obtain ⟨hlegal, hslots, hwl, hslotsInv, -, hmem⟩ := hs
    cases h
    exact ⟨hlegal, hslots, hwl, hslotsInv, errCodeByte_le_five .opcode, hmem⟩

/-- A store keeps the invariant: a whitelist word stays in its list and a SEGMEM word below SEG_MAX, which is a
multiple of 4 (00_scope.md R9). -/
theorem writeLocation_keeps_inv {s : State} (hs : s.Inv) (v : Word) (l : Location) : (writeLocation v s l).Inv := by
  cases l with
  | wlWord f j =>
    rw [writeLocation]
    split
    · obtain ⟨hlegal, hslots, hwl, hrest⟩ := hs
      exact ⟨hlegal, hslots, List.length_set.trans hwl, hrest⟩
    · exact hs
  | segWord k =>
    rw [writeLocation]
    split
    next hk =>
      obtain ⟨hlegal, hslots, hwl, hslotsInv, hcode, hmem, hwithin⟩ := hs
      have hfits : 4 * k + 4 ≤ s.cfg.segMax := by omega
      exact ⟨hlegal, hslots, hwl, hslotsInv, hcode, segWriteWord_memory hfits hmem hwithin⟩
    next => exact hs
  | _ => exact hs

/-- The reset state of a legal configuration has the invariant. -/
theorem resetFor_inv {p : Params} (hp : p.Legal) : (State.resetFor p).Inv := by
  refine ⟨hp, List.length_replicate, List.length_replicate, fun t ht => ?_, Nat.zero_le 5, State.resetFor_memory p⟩
  rw [List.eq_of_mem_replicate ht]
  exact Slot.free_inv _

/-- Every change of the reset input keeps the invariant. -/
theorem driveReset_keeps_inv {s : State} (hs : s.Inv) (level : Bool) : (driveReset level s).Inv := by
  rw [driveReset]
  split
  · exact hs
  · split
    · exact resetFor_inv hs.1
    · exact hs

/-- Every host event that completes keeps the invariant. -/
theorem perform_keeps_inv {e : BusEvent} {s t : State} (hs : s.Inv) (h : perform e s = .next t) : t.Inv := by
  cases e with
  | resetInput level =>
    cases h
    exact driveReset_keeps_inv hs level
  | read a =>
    rw [perform_read (inReset_of_perform_access h nofun)] at h
    cases h
    exact hs
  | write a v =>
    have hr := inReset_of_perform_access h nofun
    by_cases hc : locate a = .cmd
    · exact runCommand_keeps_inv hs (perform_write_cmd hr hc ▸ h)
    · rw [perform_write hr hc] at h
      cases h
      exact writeLocation_keeps_inv hs v _

/-- Every step keeps the invariant. -/
theorem step_keeps_inv {s t : State} (hs : s.Inv) (h : step s = .next t) : t.Inv := by
  unfold step at h
  split at h
  next =>
    cases h
    exact hs
  next e rest hbus => exact perform_keeps_inv (s := { s with bus := rest }) hs h

/-- What every step of a machine keeps holds after a run of any length. -/
theorem run_keeps {M : Host.Core} {P : M.State → Prop} (hstep : ∀ s t, P s → M.step s = .next t → P t) (k : Nat)
    {s t : M.State} (hs : P s) (h : M.run k s = .next t) : P t := by
  induction k generalizing s with
  | zero =>
    cases h
    exact hs
  | succ k ih =>
    rw [Host.Core.run] at h
    split at h
    next s' hs' => exact ih (hstep s s' hs hs') h
    next => cases h
    next => cases h

end Sys2Proof.Machine
end

section
/-! The statements of the family of 42_acktracker.md. -/

namespace Sys2Proof.Machine

/-- Settles O59: the order of the counts is part of the invariant, which every step keeps. -/
theorem bufferOrderHoldsAlongRuns : Obligations.BufferOrderHoldsAlongRuns := by
  intro k s t hs hrun u hu
  obtain ⟨-, -, -, hslots, -⟩ := run_keeps (M := core) (P := State.Inv) (fun _ _ => step_keeps_inv) k hs hrun
  obtain ⟨-, ⟨hcurr, hsend⟩, -⟩ := hslots u hu
  exact ⟨BitVec.le_def.1 hcurr, BitVec.le_def.1 hsend⟩

/-- Settles O17: TINIT on an active slot, the other commands on an inactive one. -/
theorem trackerChecksIndexThenState : Obligations.TrackerChecksIndexThenState := by
  intro i s hopc
  have hi : isTracker i = true := (isTracker_iff_opc i).2 hopc
  refine ⟨exec_tracker_of_index hi, fun t hn hslot ha => ?_⟩
  cases i with
  | tinit n => exact exec_tinit_of_active hn hslot ha
  | trel | tqueue | tmark | tfree | tack | trtx | trmark => exact exec_tracker_of_inactive hi nofun hn hslot ha
  | _ => cases hi

/-- Settles O18, check by check. -/
theorem tinitOutcome : Obligations.TinitOutcome := by
  refine ⟨fun n hn => decode_trackerWord (i := .tinit n) rfl hn, fun n s =>
    ⟨exec_tracker_of_index (i := .tinit n) rfl, fun t hn hslot => ⟨exec_tinit_of_active hn hslot,
      fun ha hcap => ?arg, fun ha hcap => ?allocated⟩⟩⟩
  case arg =>
    rw [exec_tinit_of_inactive hn hslot ha, if_pos hcap]
    rfl
  case allocated =>
    rw [exec_tinit_of_inactive hn hslot ha, if_neg (Nat.not_lt.2 hcap)]
    rfl

/-- Settles O19: on an active slot TREL has no further check. -/
theorem trelOutcome : Obligations.TrelOutcome :=
  ⟨fun n hn => decode_trackerWord (i := .trel n) rfl hn, fun n _ =>
    ⟨exec_tracker_of_index (i := .trel n) rfl, fun _ hn hslot =>
      ⟨exec_tracker_of_inactive (i := .trel n) rfl nofun hn hslot, exec_trel_at hn hslot⟩⟩⟩

/-- Settles O20: the accepted count is the one word that is the smaller of the two. -/
theorem tqueueOutcome : Obligations.TqueueOutcome := by
  refine ⟨fun n hn => decode_trackerWord (i := .tqueue n) rfl hn, fun n s =>
    ⟨exec_tracker_of_index (i := .tqueue n) rfl, fun t hn hslot =>
      ⟨exec_tracker_of_inactive (i := .tqueue n) rfl nofun hn hslot, fun ha acc hacc => ?_⟩⟩⟩
  obtain rfl : acc = minWord s.opa (t.cap - t.used) := eq_minWord hacc
  exact exec_tqueue_at hn hslot ha

/-- Settles O21, check by check. -/
theorem tmarkOutcome : Obligations.TmarkOutcome := by
  refine ⟨fun n hn => decode_trackerWord (i := .tmark n) rfl hn, fun n s =>
    ⟨exec_tracker_of_index (i := .tmark n) rfl, fun t hn hslot =>
      ⟨exec_tracker_of_inactive (i := .tmark n) rfl nofun hn hslot, fun ha hcount => ?refused,
        fun ha hcount => ?marked⟩⟩⟩
  case refused =>
    rw [exec_tmark_at hn hslot ha, if_exceeds hcount]
    rfl
  case marked =>
    rw [exec_tmark_at hn hslot ha, if_within hcount]
    rfl

/-- Settles O22: free_front's equation, and NXT within and beyond SEND. -/
theorem freeFrontUpdatesFields : Obligations.FreeFrontUpdatesFields := by
  intro n ds dc t hused hds hdc
  obtain rfl : ds = minWord n t.send := eq_minWord hds
  obtain rfl : dc = minWord n t.curr := eq_minWord hdc
  exact ⟨rfl, fun h => freeFront_nxt_of_le (BitVec.le_def.2 h), fun h => freeFront_nxt_of_lt (BitVec.lt_def.2 h)⟩

/-- Settles O23, check by check. -/
theorem tfreeOutcome : Obligations.TfreeOutcome := by
  refine ⟨fun n hn => decode_trackerWord (i := .tfree n) rfl hn, fun n s =>
    ⟨exec_tracker_of_index (i := .tfree n) rfl, fun t hn hslot =>
      ⟨exec_tracker_of_inactive (i := .tfree n) rfl nofun hn hslot, fun ha hcount => ?refused,
        fun ha hcount => ?freed⟩⟩⟩
  case refused =>
    rw [exec_tfree_at hn hslot ha, if_exceeds hcount]
    rfl
  case freed =>
    rw [exec_tfree_at hn hslot ha, if_within hcount]
    rfl

/-- Settles O24: at the antipode of UNA both relations with UNA fail. -/
theorem acknowledgementClasses : Obligations.AcknowledgementClasses := by
  intro t a
  refine ⟨ackClass_eq_new_iff t a, ackClass_eq_dup_iff t a, ackClass_eq_future_iff t a,
    fun (h : distance t.una a = 0x80000000) => ?antipode⟩
  case antipode =>
    obtain ⟨hlow, -, -⟩ := relations_at_antipode h
    obtain ⟨-, hle, -⟩ := relations_at_antipode (distance_swap_antipode h)
    exact (ackClass_eq_future_iff t a).2 ⟨fun ⟨hlow', _⟩ => Bool.false_ne_true (hlow.symm.trans hlow'), hle⟩

/-- Settles O25, class by class. -/
theorem tackOutcome : Obligations.TackOutcome := by
  refine ⟨fun n hn => decode_trackerWord (i := .tack n) rfl hn, fun n s =>
    ⟨exec_tracker_of_index (i := .tack n) rfl, fun t hn hslot =>
      ⟨exec_tracker_of_inactive (i := .tack n) rfl nofun hn hslot, fun ha hlow hle => ?new,
        fun ha hnew hle => ?dup, fun ha hnew hle => ?future⟩⟩⟩
  case new => exact exec_tack_new hn hslot ha ((ackClass_eq_new_iff t s.opa).2 ⟨hlow, hle⟩)
  case dup => exact exec_tack_dup hn hslot ha ((ackClass_eq_dup_iff t s.opa).2 ⟨hnew, hle⟩)
  case future => exact exec_tack_future hn hslot ha ((ackClass_eq_future_iff t s.opa).2 ⟨hnew, hle⟩)

/-- Settles O26: the acknowledgement number becomes UNA, and UNA itself is DUP. -/
theorem newAckFreesWithinSendOnce : Obligations.NewAckFreesWithinSendOnce := by
  rintro n s t ⟨-, -, ⟨-, hmax⟩, -⟩ hn hslot ha hinv hlow hle
  have hsend := hinv.send_lt hmax
  obtain ⟨-, -, hnxt, -⟩ := hinv
  obtain ⟨hpos, hwithin, hsum⟩ := newAck_splits_send hsend hnxt hlow hle
  have huna : (freeFront (s.opa - t.una) t).una = s.opa := by rw [freeFront_una, add_sub_cancel]
  refine ⟨⟨hpos, hwithin, hsum⟩, freeFront (s.opa - t.una) t, _,
    exec_tack_new hn hslot ha ((ackClass_eq_new_iff t s.opa).2 ⟨hlow, hle⟩), rfl, huna,
    freeFront_nxt_of_le (BitVec.le_def.2 hwithin) hnxt, by rwa [huna], ?replay⟩
  case replay =>
    have hslot' : (s.slots.set n (freeFront (s.opa - t.una) t))[n]? = some (freeFront (s.opa - t.una) t) :=
      List.getElem?_set_self (List.getElem?_eq_some_iff.1 hslot).1
    exact exec_tack_dup (s := finishSlot 0x25 n (freeFront (s.opa - t.una) t) 1 (s.opa - t.una) s) hn hslot' ha
      (ackClass_of_eq_una huna)

/-- Settles O27: on an active slot TRTX has no further check. -/
theorem trtxOutcome : Obligations.TrtxOutcome :=
  ⟨fun n hn => decode_trackerWord (i := .trtx n) rfl hn, fun n _ =>
    ⟨exec_tracker_of_index (i := .trtx n) rfl, fun _ hn hslot =>
      ⟨exec_tracker_of_inactive (i := .trtx n) rfl nofun hn hslot, exec_trtx_at hn hslot⟩⟩⟩

/-- Settles O28, check by check. -/
theorem trmarkOutcome : Obligations.TrmarkOutcome := by
  refine ⟨fun n hn => decode_trackerWord (i := .trmark n) rfl hn, fun n s =>
    ⟨exec_tracker_of_index (i := .trmark n) rfl, fun t hn hslot =>
      ⟨exec_tracker_of_inactive (i := .trmark n) rfl nofun hn hslot, fun ha hcount => ?refused,
        fun ha hcount => ?marked⟩⟩⟩
  case refused =>
    rw [exec_trmark_at hn hslot ha, if_exceeds hcount]
    rfl
  case marked =>
    rw [exec_trmark_at hn hslot ha, if_within hcount]
    rfl

end Sys2Proof.Machine
end

section
/-! The statement of the family of 43_control.md. -/

namespace Sys2Proof.Machine

/-- NOP is the one successful command that leaves RES0 and RES1 (43_control.md R170). -/
theorem exec_nop (s : State) : exec .nop s = .next { s with statusCode := 0x00, statusLastOpc := 0x00 } := rfl

/-- Settles O10: NOP's IDX must be 0, so no other word shares its operation code. -/
theorem nopOutcome : Obligations.NopOutcome :=
  ⟨by decide, onlyLegalWord_encode (i := .nop) rfl, exec_nop⟩

end Sys2Proof.Machine
end

section
/-! The statement of the family of 60_exceptions.md. -/

namespace Sys2Proof.Machine

/-- Of the ways a command can end, only the error leaves CODE other than OK, and it writes STATUS alone
(60_exceptions.md R178, R179). -/
theorem CommandOutcome.eq_of_not_ok {i : Instr} {s t : State} (h : CommandOutcome i s t) (hcode : t.statusCode ≠ 0x00) :
    t = { s with statusCode := t.statusCode, statusLastOpc := i.opc } := by
  cases h with
  | error e => exact raiseErr_eq_withStatus e i.opc s
  | statusOnly | results | slot => exact absurd rfl hcode

/-- Settles O39, from the ways a command can end; an illegal word ends in ERR_OPCODE. -/
theorem errorsChangeStatusOnly : Obligations.ErrorsChangeStatusOnly := by
  refine ⟨fun i s t h hcode => (exec_outcome h).eq_of_not_ok hcode, fun w s t h hcode => ?write⟩
  case write =>
    cases hdecode : decode w with
    | command i =>
      rw [runCommand, hdecode] at h
      have hopc : w.extractLsb' 0 8 = i.opc := opcField_of_decode hdecode
      rw [hopc]
      exact (exec_outcome h).eq_of_not_ok hcode
    | illegal why =>
      rw [runCommand_illegal s hdecode] at h
      cases h
      exact raiseErr_eq_withStatus .opcode (opcField w) s

end Sys2Proof.Machine
end

section
/-! The statements of the family of 70_reset_and_hazards.md. -/

namespace Sys2Proof.Machine

/-! ## The slots of reset -/

/-- Where the slots are those of reset, every index below N_TRK names a free one (70_reset_and_hazards.md R196). -/
theorem getElem?_slots_of_reset {s : State} {n : Nat} (hslots : s.slots = (State.resetFor s.cfg).slots)
    (hn : n < s.cfg.nTrk) : s.slots[n]? = some Slot.free := by
  rw [hslots, State.resetFor_slots, List.getElem?_replicate_of_lt hn]

/-- Settles O29: the common checks find no active slot, and TINIT wants an inactive one. -/
theorem onlyTinitSucceedsAfterReset : Obligations.OnlyTinitSucceedsAfterReset := by
  intro s _ hslots
  refine ⟨fun i hlo hhi => ?others, fun n hn hcap => ?tinit⟩
  case others =>
    have hi : isTracker i = true := (isTracker_iff_opc i).2 ⟨Nat.le_of_succ_le hlo, hhi⟩
    have hne : ∀ n, i ≠ .tinit n := by
      rintro n rfl
      exact absurd hlo (by decide : ¬0x21 ≤ (0x20 : Byte).toNat)
    split
    next hindex => exact exec_tracker_of_index hi hindex
    next hindex =>
      have hn := Nat.not_le.1 hindex
      exact exec_tracker_of_inactive hi hne hn (getElem?_slots_of_reset hslots hn) rfl
  case tinit =>
    rw [exec_tinit_of_inactive hn (getElem?_slots_of_reset hslots hn) rfl, if_neg (Nat.not_lt.2 hcap)]
    exact ⟨_, rfl, rfl, rfl⟩

/-! ## The parameters (70_reset_and_hazards.md R198) -/

/-- A CMD write leaves the parameters, legal word or not. -/
theorem runCommand_cfg {w : Word} {s t : State} (h : runCommand w s = .next t) : t.cfg = s.cfg := by
  cases hdecode : decode w with
  | command i =>
    rw [runCommand, hdecode] at h
    obtain ⟨hcfg, -⟩ := (exec_outcome h).frame
    exact hcfg
  | illegal why =>
    rw [runCommand_illegal s hdecode] at h
    cases h
    exact raiseErr_cfg ..

/-- A change of the reset input leaves the parameters: a release puts the reset values for the same ones. -/
theorem driveReset_cfg (level : Bool) (s : State) : (driveReset level s).cfg = s.cfg := by
  rw [driveReset]
  split
  · rfl
  · split
    · exact releaseReset_cfg s
    · rfl

/-- Every host event that completes leaves the parameters. -/
theorem perform_cfg {e : BusEvent} {s t : State} (h : perform e s = .next t) : t.cfg = s.cfg := by
  cases e with
  | resetInput level =>
    cases h
    exact driveReset_cfg level s
  | read a =>
    rw [perform_read (inReset_of_perform_access h nofun)] at h
    cases h
    exact performRead_cfg a s
  | write a v =>
    have hr := inReset_of_perform_access h nofun
    by_cases hc : locate a = .cmd
    · exact runCommand_cfg (perform_write_cmd hr hc ▸ h)
    · rw [perform_write hr hc] at h
      cases h
      obtain ⟨hcfg, -⟩ := writeLocation_frame v s (locate a)
      exact hcfg

/-- Settles O43: a step is one host event or none, and taking the event off the list leaves the parameters. -/
theorem parametersNeverChange : Obligations.ParametersNeverChange := by
  intro s t h
  unfold step at h
  split at h
  next =>
    cases h
    rfl
  next e rest hbus => exact perform_cfg (s := { s with bus := rest }) h

end Sys2Proof.Machine
end

section
/-! SUPPORT. The words of every command (30_encoding.md R70, R72, R75): the row of a command's word, and the fields of
a legal word. -/

namespace Sys2Proof.Machine

/-! ## From a command to its word -/

/-- A command is well formed exactly when its IDX fits in the field (30_encoding.md R72). -/
theorem wellFormed_iff_index (i : Instr) : i.wellFormed = true ↔ i.index < 256 := by
  cases i <;> simp [Instr.wellFormed, Instr.index]

/-- The word of a well-formed command decodes to the command. -/
theorem decode_encode {i : Instr} (hi : i.wellFormed = true) : decode (encode i) = .command i := by
  have hidx := (wellFormed_iff_index i).1 hi
  cases i with
  | nop | slt | sle | sdist | vseg => decide
  | vopt f => exact decode_encode_vopt hidx
  | tinit | trel | tqueue | tmark | tfree | tack | trtx | trmark =>
    rw [encode_eq_ofNat _ hidx]
    exact decode_trackerWord rfl hidx

/-! ## From a word to its command -/

/-- A row that leaves IDX free builds the command of that IDX. -/
theorem opcodeMap_builds_index : ∀ r ∈ opcodeMap, ∀ n, zeroIndex (r.build n) = false → (r.build n).index = n := by
  simp only [opcodeMap, List.forall_mem_cons, List.not_mem_nil, false_implies, implies_true, and_true]
  exact ⟨nofun, nofun, nofun, nofun, fun _ _ => rfl, fun _ _ => rfl, fun _ _ => rfl, fun _ _ => rfl, fun _ _ => rfl,
    fun _ _ => rfl, fun _ _ => rfl, fun _ _ => rfl, nofun, fun _ _ => rfl⟩

/-- The IDX field of a legal word is the command's IDX, 0 where IDX must be 0 (30_encoding.md R72). -/
theorem idxField_of_decode {w : Word} {i : Instr} (h : decode w = .command i) : idxField w = i.index := by
  cases hzero : zeroIndex i with
  | true =>
    have hidx : i.index < 256 := (index_of_zeroIndex hzero).trans_lt (by decide)
    rw [eq_encode_of_decode_zeroIndex h hzero]
    exact (Laws.encode_fields i.index i.opc).2.2 hidx
  | false =>
    obtain ⟨r, hr, -, rfl⟩ := exists_row_of_decode h
    exact (opcodeMap_builds_index r hr _ hzero).symm

/-- A decoded command is well formed, as the IDX field has eight bits. -/
theorem wellFormed_of_decode {w : Word} {i : Instr} (h : decode w = .command i) : i.wellFormed = true := by
  rw [wellFormed_iff_index, ← idxField_of_decode h]
  exact BitVec.isLt _

/-- A command word is its three fields (30_encoding.md R70). -/
theorem eq_append_fields (w : Word) : w = rsvField w ++ BitVec.ofNat 8 (idxField w) ++ opcField w := by
  rw [idxField, BitVec.ofNat_toNat, BitVec.setWidth_eq, rsvField, opcField]
  apply BitVec.eq_of_getLsbD_eq
  intro i hi
  simp only [BitVec.getLsbD_append, BitVec.getLsbD_extractLsb']
  interval_cases i <;> simp

/-- A legal word is the word of the command it decodes to: each of its fields is the command's. -/
theorem encode_of_decode {w : Word} {i : Instr} (h : decode w = .command i) : encode i = w :=
  calc encode i = 0#16 ++ BitVec.ofNat 8 i.index ++ i.opc := rfl
    _ = rsvField w ++ BitVec.ofNat 8 (idxField w) ++ opcField w := by
      rw [rsvField_of_decode h, idxField_of_decode h, opcField_of_decode h]
      rfl
    _ = w := (eq_append_fields w).symm

/-! ## The rows -/

/-- A row that covers a word has the word's operation code. -/
theorem opcField_of_covers {w : Word} {r : Row} (hr : r ∈ opcodeMap) (hw : w &&& r.mask = r.pattern) :
    opcField r.pattern = opcField w := by
  obtain ⟨-, hopc⟩ := opcodeMap_fixes_opc r hr
  rw [opcField_of_decode (decode_of_covers hr hw), hopc]

/-- No two rows, by position in the map, have the same operation code. -/
theorem opcodeMap_pairwise_opc : opcodeMap.Pairwise fun r q => opcField r.pattern ≠ opcField q.pattern := by
  decide

/-- A word decodes to a command exactly when a row covers it (30_encoding.md R75, R76). -/
theorem exists_decode_iff_covers (w : Word) :
    (∃ r ∈ opcodeMap, w &&& r.mask = r.pattern) ↔ ∃ i, decode w = .command i := by
  constructor
  · rintro ⟨r, hr, hw⟩
    exact ⟨_, decode_of_covers hr hw⟩
  · rintro ⟨i, h⟩
    obtain ⟨r, hr, hw, -⟩ := exists_row_of_decode h
    exact ⟨r, hr, hw⟩

end Sys2Proof.Machine
end

section
/-! SUPPORT. One step of the machine: no event, one event, and the one refusal (00_scope.md R19, 70_reset_and_hazards.md
R195). -/

namespace Sys2Proof.Machine

theorem step_of_idle {s : State} (h : s.bus = []) : step s = .next s := by
  rw [step, h]

theorem step_of_event {s : State} {e : BusEvent} {rest : List BusEvent} (h : s.bus = e :: rest) :
    step s = perform e { s with bus := rest } := by
  rw [step, h]

theorem runCommand_of_decode {w : Word} {i : Instr} (s : State) (h : decode w = .command i) :
    runCommand w s = exec i s := by
  rw [runCommand, h]

/-- A CMD write of a command's word, outside reset, runs the command (20_memory.md R62). -/
theorem perform_write_cmdOffset {w : Word} {i : Instr} {s : State} (hr : s.inReset = false)
    (h : decode w = .command i) : perform (.write cmdOffset w) s = exec i s :=
  (perform_write_cmd hr locate_cmd).trans (runCommand_of_decode s h)

/-- Placing a command's word places the CMD write of that word. -/
theorem fetchEvent_word (w : Word) : fetchEvent 32 w.toNat = .write cmdOffset w := by
  rw [fetchEvent, Nat.mod_eq_of_lt w.isLt, BitVec.ofNat_toNat, BitVec.setWidth_eq]

/-- Outside reset every event completes (60_exceptions.md R175, R193). -/
theorem exists_perform_next (e : BusEvent) {s : State} (hr : s.inReset = false) : ∃ t, perform e s = .next t := by
  cases e with
  | resetInput level => exact ⟨_, rfl⟩
  | read a => exact ⟨_, perform_read hr⟩
  | write a v => exact exists_perform_write_next a v hr

theorem perform_read_of_reset {a : Offset} {s : State} (hr : s.inReset = true) :
    perform (.read a) s = .refused .accessDuringReset := if_pos hr

theorem perform_write_of_reset {a : Offset} {v : Word} {s : State} (hr : s.inReset = true) :
    perform (.write a v) s = .refused .accessDuringReset := if_pos hr

/-- The one refusal is a host access while reset is asserted (70_reset_and_hazards.md R195). -/
theorem refused_cases {e : BusEvent} {s : State} {r : Refusal} (h : perform e s = .refused r) :
    r = .accessDuringReset ∧ s.inReset = true ∧ ((∃ a, e = .read a) ∨ ∃ a v, e = .write a v) := by
  cases hr : s.inReset with
  | false =>
    obtain ⟨t, ht⟩ := exists_perform_next e hr
    cases ht.symm.trans h
  | true =>
    cases e with
    | resetInput level => cases h
    | read a =>
      cases (perform_read_of_reset hr).symm.trans h
      exact ⟨rfl, rfl, .inl ⟨a, rfl⟩⟩
    | write a v =>
      cases (perform_write_of_reset hr).symm.trans h
      exact ⟨rfl, rfl, .inr ⟨a, v, rfl⟩⟩

end Sys2Proof.Machine
end

section
/-! The statements of decoding and of the step, with those of the invariant. -/

namespace Sys2Proof.Machine

/-- Settles O2: a row of the map covers the command's word and builds the command from its IDX. -/
theorem decodeEncodeRoundTrip : Obligations.DecodeEncodeRoundTrip := fun _ => decode_encode

/-- Settles O58: of the host's events a store, a command and a change of the reset input each keep it. -/
theorem stepKeepsInvariant : Obligations.StepKeepsInvariant := fun _ _ => step_keeps_inv

/-- Settles O3: the three fields of a legal word are the command's. -/
theorem decodedWordIsItsEncoding : Obligations.DecodedWordIsItsEncoding :=
  fun _ _ h => ⟨wellFormed_of_decode h, encode_of_decode h⟩

/-- Settles O4: two rows that cover one word would share its operation code. -/
theorem opcodeRowsDisjoint : Obligations.OpcodeRowsDisjoint := by
  refine fun w => ⟨opcodeMap_pairwise_opc.imp_of_mem ?_, exists_decode_iff_covers w⟩
  rintro r q hr hq hne ⟨hrw, hqw⟩
  exact hne ((opcField_of_covers hr hrw).trans (opcField_of_covers hq hqw).symm)

/-- Settles O9: the idle step completes, and an event is refused only as an access during reset. -/
theorem everyAccessCompletes : Obligations.EveryAccessCompletes := by
  refine ⟨fun s hr => ?completes, fun s r h => ?refused, fun i s => ?command⟩
  case completes =>
    cases hbus : s.bus with
    | nil => exact ⟨s, step_of_idle hbus⟩
    | cons e rest =>
      rw [step_of_event hbus]
      exact exists_perform_next e hr
  case refused =>
    cases hbus : s.bus with
    | nil => cases (step_of_idle hbus).symm.trans h
    | cons e rest =>
      rw [step_of_event hbus] at h
      obtain ⟨hwhy, hreset, ⟨a, rfl⟩ | ⟨a, v, rfl⟩⟩ := refused_cases h
      · exact ⟨hwhy, hreset, .inl ⟨a, rest, rfl⟩⟩
      · exact ⟨hwhy, hreset, .inr ⟨a, v, rest, rfl⟩⟩
  case command =>
    obtain ⟨t, ht, -⟩ := exists_exec_outcome i s
    exact ⟨t, ht⟩

/-- Settles O6, from the CMD write of a legal word. -/
theorem stepRunsDecodedCommand : Obligations.StepRunsDecodedCommand :=
  fun _ _ _ _ hr hbus h => ⟨wellFormed_of_decode h, (step_of_event hbus).trans (perform_write_cmdOffset hr h)⟩

/-- Settles O7: the placed event is the CMD write of the command's word, with reset released. -/
theorem fetchWordRunsNext : Obligations.FetchWordRunsNext := by
  intro s i hi
  have hbus : (s.withFetchWord 32 (encode i).toNat).bus = .write cmdOffset (encode i) :: s.bus := by
    rw [← fetchEvent_word]
    rfl
  rw [step_of_event hbus]
  exact perform_write_cmdOffset rfl (decode_encode hi)

/-- Settles O8: a step looks at the first pending event and at nothing else. -/
theorem stepPerformsOneEvent : Obligations.StepPerformsOneEvent :=
  ⟨fun _ => step_of_idle, fun _ _ _ => step_of_event⟩

/-- Settles O57: the vector configuration is legal, so its reset is one case of any legal configuration's. -/
theorem resetEstablishesInvariant : Obligations.ResetEstablishesInvariant :=
  ⟨fun _ => resetFor_inv, resetFor_inv (by decide)⟩

end Sys2Proof.Machine
end

section
/-! SUPPORT. The whitelist bits VOPT reads (41_validator.md section 4, R125). -/

namespace Sys2Proof.Machine

section
variable {f : Nat} {s : State} {wl : List Whitelist}
  (hwl : ∀ k : Byte, 3 ≤ k.toNat → whitelisted { s with wl := wl } f k = whitelisted s f k)
include hwl

/-- A pass of the scan looks a kind up only past the end-of-list and no-operation kinds, and lets the MSS kind through
whatever its bit. -/
theorem optRound_withWhitelists (stop i : Nat) (next : Nat → Option (BitVec 16) → Verdict × Word)
    (mss : Option (BitVec 16)) :
    optRound { s with wl := wl } f stop next i mss = optRound s f stop next i mss := by
  have hread (j : Nat) : segRead { s with wl := wl } j = segRead s j := rfl
  unfold optRound
  simp only [hread]
  refine ite_congr rfl (fun _ => rfl) fun hend => ite_congr rfl (fun _ => rfl) fun hnop =>
    ite_congr (propext (and_congr_right fun hmss => ?_)) (fun _ => rfl) fun _ => rfl
  rw [hwl]
  bv_omega

/-- Nor does the whole scan depend on those bits, whatever its bound. -/
theorem optScan_withWhitelists (stop fuel i : Nat) (mss : Option (BitVec 16)) :
    optScan { s with wl := wl } f stop fuel i mss = optScan s f stop fuel i mss := by
  induction fuel generalizing i mss with
  | zero => rfl
  | succ fuel ih =>
    obtain hpast | hlt := le_or_gt stop i
    · rw [optScan_past _ _ _ _ _ _ hpast, optScan_past _ _ _ _ _ _ hpast]
    · rw [optScan_succ_of_lt hlt, optScan_succ_of_lt hlt, funext₂ ih]
      exact optRound_withWhitelists hwl ..

theorem voptVerdict_withWhitelists : voptVerdict { s with wl := wl } f = voptVerdict s f := by
  have hlength : lengthChecks { s with wl := wl } = lengthChecks s := rfl
  cases hl : lengthChecks s with
  | some v => rw [voptVerdict_of_lengthChecks hl, voptVerdict_of_lengthChecks (hlength.trans hl)]
  | none =>
    rw [voptVerdict_past_length hl, voptVerdict_past_length (hlength.trans hl)]
    exact optScan_withWhitelists hwl ..

/-- VOPT ends alike under the two whitelists. -/
theorem exec_vopt_withWhitelists :
    SameEnding 0x31 s { s with wl := wl } (exec (.vopt f) s) (exec (.vopt f) { s with wl := wl }) := by
  obtain hindex | hf := le_or_gt s.cfg.nFilt f
  · rw [exec_vopt_of_index hindex, exec_vopt_of_index (s := { s with wl := wl }) hindex]
    exact .error _
  · obtain hfits | hlong := le_or_gt s.vlen.toNat s.cfg.segMax
    · rw [exec_vopt_of_fits hf hfits, exec_vopt_of_fits (s := { s with wl := wl }) hf hfits,
        voptVerdict_withWhitelists hwl]
      exact .results _ _
    · rw [exec_vopt_of_long hf hlong, exec_vopt_of_long (s := { s with wl := wl }) hf hlong]
      exact .error _

end

/-- A command that ends alike keeps the difference in the whitelists and adds none. -/
theorem SameEnding.withWhitelists {opc : Byte} {s t : State} {wl : List Whitelist} {r r' : Result}
    (h : SameEnding opc s { s with wl := wl } r r') (hr : r = .next t) : r' = .next { t with wl := wl } := by
  cases h with
  | error | results =>
    cases hr
    rfl

end Sys2Proof.Machine
end

section
/-! The statements of what commands depend on and leave. -/

namespace Sys2Proof.Machine

/-- Settles O35: the scan asks for the bit of a kind only when it is none of 0, 1 and 2. -/
theorem voptIgnoresKnownKindBits : Obligations.VoptIgnoresKnownKindBits :=
  fun _ _ _ _ hwl h => (exec_vopt_withWhitelists hwl).withWhitelists h

/-- Settles O41: each way a command can end writes STATUS, the results and a slot at most. -/
theorem commandsKeepInputs : Obligations.CommandsKeepInputs := by
  intro i s t h
  have hnop : i = .nop → t.res0 = s.res0 ∧ t.res1 = s.res1 := by
    rintro rfl
    cases (exec_nop s).symm.trans h
    exact ⟨rfl, rfl⟩
  cases exec_outcome h with
  | error | statusOnly | results | slot =>
    exact ⟨rfl, rfl, rfl, rfl, rfl, rfl, rfl, rfl, rfl, fun _ => rfl, rfl, rfl, rfl, rfl, rfl, hnop⟩

end Sys2Proof.Machine
end

section
/-! SUPPORT. The offsets of the control region (20_memory.md R52), and reading a place after a store to it or to
another. -/

namespace Sys2Proof.Machine

/-! ## Places -/

theorem locate_opa : locate 0x00014 = .opa := rfl
theorem locate_opb : locate 0x00018 = .opb := rfl
theorem locate_vlen : locate 0x00024 = .vlen := rfl
theorem locate_vctrl : locate 0x00028 = .vctrl := rfl
theorem locate_flagRej0 : locate 0x00050 = .flagRej0 := rfl
theorem locate_flagRej1 : locate 0x00054 = .flagRej1 := rfl

theorem locate_srcAddr : ∀ j : Fin 4, locate (BitVec.ofNat 17 (0x00030 + 4 * j.val)) = .srcAddr j := by decide
theorem locate_dstAddr : ∀ j : Fin 4, locate (BitVec.ofNat 17 (0x00040 + 4 * j.val)) = .dstAddr j := by decide

/-- Past FLAGREJ1 the control region is reserved. -/
theorem controlLocation_of_ge {o : Nat} (h : 0x58 ≤ o) : controlLocation o = .reserved := by
  rw [controlLocation] <;> omega

/-- The two reserved ranges of the map (20_memory.md R52, R58). -/
theorem locate_reserved {a : Offset}
    (h : (0x00058 ≤ a.toNat ∧ a.toNat < 0x02000) ∨ (0x08000 ≤ a.toNat ∧ a.toNat < 0x10000)) :
    locate a = .reserved := by
  simp only [locate, wordOffset_eq]
  obtain ⟨hlo, hhi⟩ | ⟨hlo, hhi⟩ := h
  · rw [if_pos (by omega), controlLocation_of_ge (by omega)]
  · rw [if_neg (by omega), if_neg (by omega), if_neg (by omega), if_pos (by omega)]

/-! ## Registers -/

theorem bank_get_set_self {n : Nat} (xs : Vector Word n) (i : Fin n) (v : Word) : (xs.set i v).get i = v :=
  (bank_get_set xs i i v).trans (if_pos rfl)

theorem bank_get_set_ne {n : Nat} (xs : Vector Word n) {i k : Fin n} (h : k ≠ i) (v : Word) :
    (xs.set i v).get k = xs.get k :=
  (bank_get_set xs i k v).trans (if_neg h.symm)

/-- VCTRL reads as the low seven bits written to it (10_state.md R29). -/
theorem vctrlWord_vctrlOfWord (v : Word) : vctrlWord (vctrlOfWord v) = v &&& 0x0000007F := by
  apply BitVec.eq_of_getLsbD_eq
  intro i hi
  simp only [vctrlWord, vctrlOfWord, BitVec.getLsbD_append, BitVec.getLsbD_extractLsb', BitVec.getLsbD_and]
  interval_cases i <;> simp

/-! ## SEGMEM -/

/-- Writing a byte again changes nothing. -/
theorem Memory.write_write (m : List Host.Cell) (i : Nat) (b : Byte) :
    Memory.write (Memory.write m i b) i b = Memory.write m i b := by
  induction m with
  | nil => simp [Memory.write]
  | cons c m ih =>
    obtain ⟨k, d⟩ := c
    obtain hlt | rfl | hgt := lt_trichotomy i k
    · simp [Memory.write, hlt]
    · simp [Memory.write]
    · simp [Memory.write, Nat.not_lt.2 hgt.le, hgt.ne', ih]

/-- A byte already there, so that writing it changes nothing, is still there after a later one is written. -/
theorem Memory.write_eq_self_of_write {m : List Host.Cell} {i j : Nat} {b : Byte} (c : Byte) (hij : i < j)
    (h : Memory.write m i b = m) : Memory.write (Memory.write m j c) i b = Memory.write m j c := by
  induction m with
  | nil => cases h
  | cons d m ih =>
    obtain ⟨k, e⟩ := d
    obtain hlt | rfl | hgt := lt_trichotomy i k
    · simp [Memory.write, hlt] at h
    · simp_all [Memory.write, Nat.not_lt.2 hij.le, hij.ne']
    · simp_all [Memory.write, Nat.not_lt.2 hgt.le, hgt.ne', (hgt.trans hij).ne', Nat.not_lt.2 (hgt.trans hij).le]

/-- Likewise after bytes at later indices are written. -/
theorem Memory.write_eq_self_of_writeAll {m : List Host.Cell} {i j : Nat} {b : Byte} (bs : List Byte) (hij : i < j)
    (h : Memory.write m i b = m) : Memory.write (Memory.writeAll m j bs) i b = Memory.writeAll m j bs := by
  induction bs generalizing m j with
  | nil => exact h
  | cons c bs ih => exact ih (Nat.lt_succ_of_lt hij) (Memory.write_eq_self_of_write c hij h)

/-- Writing consecutive bytes again changes nothing. -/
theorem Memory.writeAll_writeAll (m : List Host.Cell) (i : Nat) (bs : List Byte) :
    Memory.writeAll (Memory.writeAll m i bs) i bs = Memory.writeAll m i bs := by
  induction bs generalizing m i with
  | nil => rfl
  | cons b bs ih =>
    simp only [Memory.writeAll]
    rw [Memory.write_eq_self_of_writeAll bs (Nat.lt_succ_self i) (Memory.write_write m i b), ih]

theorem segWriteWord_segWriteWord (k : Nat) (v : Word) (s : State) :
    segWriteWord k v (segWriteWord k v s) = segWriteWord k v s := by
  rw [segWriteWord, segWriteWord_segmem, Memory.writeAll_writeAll]
  rfl

/-- A window write leaves every other word of the window. -/
theorem segReadWord_segWriteWord_ne {k l : Nat} (h : l ≠ k) (v : Word) (s : State) :
    segReadWord (segWriteWord k v s) l = segReadWord s l := by
  have hbyte (i : Nat) (hi : i < 4) : segRead (segWriteWord k v s) (4 * l + i) = segRead s (4 * l + i) :=
    segRead_segWriteWord_outside k v s (by omega)
  have hfirst : segRead (segWriteWord k v s) (4 * l) = segRead s (4 * l) := hbyte 0 (by omega)
  simp only [segReadWord, hfirst, hbyte 1 (by omega), hbyte 2 (by omega), hbyte 3 (by omega)]

/-! ## Whitelists -/

/-- A whitelist after whitelist `f` is replaced, in a list long enough to hold it or not. -/
theorem whitelist_set (s : State) (f g : Nat) (w : Whitelist) :
    ({ s with wl := s.wl.set f w } : State).whitelist g = if f = g ∧ g < s.wl.length then w else s.whitelist g := by
  simp only [State.whitelist, List.getD_eq_getElem?_getD, List.getElem?_set]
  by_cases hg : f = g
  · subst hg
    obtain hlt | hge := Nat.lt_or_ge f s.wl.length
    · simp [hlt]
    · simp [Nat.not_lt.2 hge]
  · simp [hg]

/-- A write to a whitelist word leaves every other one. -/
theorem whitelist_get_set_ne {f g : Nat} {j k : Fin 8} (h : Location.wlWord g k ≠ .wlWord f j) (v : Word) (s : State) :
    (({ s with wl := s.wl.set f ((s.whitelist f).set j v) } : State).whitelist g).get k = (s.whitelist g).get k := by
  rw [whitelist_set]
  split
  next hg =>
    obtain ⟨rfl, -⟩ := hg
    exact bank_get_set_ne _ (fun hk => h (by rw [hk])) v
  next => rfl

/-- Writing a whitelist word again changes nothing. -/
theorem whitelist_set_set (f : Nat) (j : Fin 8) (v : Word) (s : State) :
    (({ s with wl := s.wl.set f ((s.whitelist f).set j v) } : State).whitelist f).set j v = (s.whitelist f).set j v := by
  rw [whitelist_set]
  split
  · exact Vector.set_set ..
  · rfl

/-! ## Stores -/

/-- A store done twice is the store done once (20_memory.md R61). -/
theorem writeLocation_writeLocation (v : Word) (s : State) (l : Location) :
    writeLocation v (writeLocation v s l) l = writeLocation v s l := by
  obtain ⟨hcfg, -⟩ := writeLocation_frame v s l
  cases l with
  | srcAddr j | dstAddr j => simp only [writeLocation, Vector.set_set]
  | wlWord f j =>
    obtain hlt | hge := Nat.lt_or_ge f s.cfg.nFilt
    · rw [writeLocation_wlWord_of_lt j v (hcfg ▸ hlt), writeLocation_wlWord_of_lt j v hlt, whitelist_set_set,
        List.set_set]
    · rw [writeLocation_wlWord_of_ge j v hge, writeLocation_wlWord_of_ge j v hge]
  | segWord k =>
    obtain hlt | hge := Nat.lt_or_ge (4 * k) s.cfg.segMax
    · rw [writeLocation_segWord_of_lt v (hcfg ▸ hlt), writeLocation_segWord_of_lt v hlt, segWriteWord_segWriteWord]
    · rw [writeLocation_segWord_of_ge v hge, writeLocation_segWord_of_ge v hge]
  | _ => rfl

/-- A store leaves what every other place reads as: a bank or window by its other words, and a register because no
other place reads its field. -/
theorem readLocation_writeLocation_ne {l p : Location} (h : p ≠ l) (v : Word) (s : State) :
    readLocation (writeLocation v s l) p = readLocation s p := by
  cases l with
  | srcAddr j =>
    cases p with
    | srcAddr k => exact bank_get_set_ne _ (fun hk => h (by rw [hk])) v
    | _ => rfl
  | dstAddr j =>
    cases p with
    | dstAddr k => exact bank_get_set_ne _ (fun hk => h (by rw [hk])) v
    | _ => rfl
  | wlWord f j =>
    obtain hlt | hge := Nat.lt_or_ge f s.cfg.nFilt
    · rw [writeLocation_wlWord_of_lt j v hlt]
      cases p with
      | wlWord g k => exact ite_congr rfl (fun _ => whitelist_get_set_ne h v s) fun _ => rfl
      | _ => rfl
    · rw [writeLocation_wlWord_of_ge j v hge]
  | segWord k =>
    obtain hlt | hge := Nat.lt_or_ge (4 * k) s.cfg.segMax
    · rw [writeLocation_segWord_of_lt v hlt]
      cases p with
      | segWord i =>
        exact ite_congr rfl (fun _ => segReadWord_segWriteWord_ne (fun hi => h (by rw [hi])) v s) fun _ => rfl
      | _ => rfl
    · rw [writeLocation_segWord_of_ge v hge]
  | opa | opb | vlen | vctrl | flagRej0 | flagRej1 => cases p <;> trivial
  | _ => rfl

end Sys2Proof.Machine
end

section
/-! The statements of the map and of the host's reads and writes. -/

namespace Sys2Proof.Machine

/-- Settles O45: the offsets by evaluation, the windows and the reserved ranges by arithmetic. -/
theorem addressMapMatchesTable : Obligations.AddressMapMatchesTable := by
  refine ⟨?offsets, fun j => ⟨locate_srcAddr j, locate_dstAddr j⟩, fun f hf => locate_wlWord hf,
    fun n hn => locate_slotWord hn, fun k hk => locate_segWord hk, fun a => locate_reserved, fun s => ?values⟩
  case offsets =>
    exact ⟨rfl, locate_cfg0, locate_cfg1, locate_status, locate_cmd, locate_opa, locate_opb, rfl, rfl, locate_vlen,
      locate_vctrl, rfl, locate_flagRej0, locate_flagRej1⟩
  case values =>
    exact ⟨rfl, rfl, rfl, rfl, rfl, rfl, rfl, rfl, rfl, rfl,
      fun j => ⟨busRead_at (locate_srcAddr j) s, busRead_at (locate_dstAddr j) s⟩⟩

/-- Settles O46: a second store finds the word already there; a second TINIT finds the slot already active. -/
theorem accessSideEffects : Obligations.AccessSideEffects := by
  refine ⟨fun a s hr => perform_read hr, fun a v s hr hc => ?store, ?command⟩
  case store =>
    obtain ⟨-, hres0, hres1, hcode, hopc, hslots, hreset, -, hbus, hreads⟩ := writeLocation_frame v s (locate a)
    refine ⟨_, perform_write hr hc, ?_, hcode, hopc, hres0, hres1, hslots, hbus, hreads⟩
    rw [perform_write (hreset.trans hr) hc, writeLocation_writeLocation]
  case command =>
    exact ⟨0x00000020, State.reset, _, _, rfl, rfl, fun h => absurd (congrArg State.statusCode h) (by decide)⟩

/-- Settles O47: each place stores the word in its own field, and reads that field. -/
theorem writtenPlacesReadBack : Obligations.WrittenPlacesReadBack := by
  intro v s hr
  have store {a : Offset} {l : Location} (hl : locate a = l) (hc : l ≠ .cmd) := perform_write_at (v := v) hr hl hc
  refine ⟨⟨store locate_opa nofun, rfl⟩, ⟨store locate_opb nofun, rfl⟩, ⟨store locate_vlen nofun, rfl⟩,
    ⟨store locate_flagRej0 nofun, rfl⟩, ⟨store locate_flagRej1 nofun, rfl⟩, fun j => ?srcAddr, fun j => ?dstAddr,
    ⟨_, store locate_vctrl nofun, rfl, vctrlWord_vctrlOfWord v⟩, fun f j hf hlt hlen => ?whitelist,
    fun k hk hlt => ?segmem⟩
  case srcAddr =>
    have hself := bank_get_set_self s.srcAddr j v
    exact ⟨_, ⟨store (locate_srcAddr j) nofun, (busRead_at (locate_srcAddr j) _).trans hself⟩, rfl, hself,
      fun k hk => bank_get_set_ne s.srcAddr hk v⟩
  case dstAddr =>
    have hself := bank_get_set_self s.dstAddr j v
    exact ⟨_, ⟨store (locate_dstAddr j) nofun, (busRead_at (locate_dstAddr j) _).trans hself⟩, rfl, hself,
      fun k hk => bank_get_set_ne s.dstAddr hk v⟩
  case whitelist =>
    obtain ⟨hstored, -⟩ := whitelistWindow f j v s hf hr
    obtain ⟨t, hwrite, hframe, hread, -⟩ := hstored hlt hlen
    exact ⟨t, ⟨hwrite, hread⟩, hframe⟩
  case segmem =>
    have hwrite := store (locate_segWord hk) nofun
    rw [writeLocation_segWord_of_lt v hlt] at hwrite
    have hread := readLocation_segWord_of_lt (s := segWriteWord k v s) hlt
    exact ⟨_, ⟨hwrite, (busRead_at (locate_segWord hk) _).trans (hread.trans (segReadWord_segWriteWord k v s))⟩, rfl⟩

/-- Settles O48: the two offsets name two places, and a store touches one. -/
theorem writesLeaveOtherPlaces : Obligations.WritesLeaveOtherPlaces :=
  fun _ v s hr hc => ⟨_, perform_write hr hc, fun _ hne => readLocation_writeLocation_ne hne v s⟩

/-- Settles O50: the four fields lie side by side in bits [6:0]. -/
theorem vctrlFields : Obligations.VctrlFields := by
  refine ⟨fun _ => rfl, fun v s hr => ⟨vctrlOfWord v, perform_write_at hr locate_vctrl nofun, vctrlWord_vctrlOfWord v,
    ?af, ?dtype, ?astate, ?csumok⟩⟩
  case af | dtype | astate | csumok =>
    simp only [vctrlOfWord, BitVec.extractLsb'_toNat, Nat.shiftRight_eq_div_pow, Nat.pow_zero, Nat.div_one]

end Sys2Proof.Machine
end

section
/-! The statement of the reset event. -/

namespace Sys2Proof.Machine

/-- No whitelist bit is set after reset (70_reset_and_hazards.md R196). -/
theorem whitelisted_releaseReset (s : State) (f : Nat) (k : Byte) : whitelisted (releaseReset s) f k = false := by
  have hzero : (releaseReset s).whitelist f = Vector.replicate 8 0 := by
    rw [State.whitelist, releaseReset_wl, List.getD_eq_getElem?_getD, List.getElem?_getD_replicate_default_eq]
  have hword (j : Fin 8) : (Vector.replicate 8 (0 : Word)).get j = 0 := Vector.getElem_replicate _
  rw [whitelisted, hzero, hword]
  exact BitVec.getLsbD_zero

/-- Every slot is free after reset. -/
theorem getElem?_slots_releaseReset {s : State} {n : Nat} {u : Slot} (h : (releaseReset s).slots[n]? = some u) :
    u = Slot.free :=
  List.eq_of_mem_replicate (List.mem_of_getElem? h)

/-- Settles O56, from the reset value of each field. -/
theorem resetEvent : Obligations.ResetEvent := by
  refine ⟨fun s a v hr => ⟨perform_read_of_reset hr, perform_write_of_reset hr⟩, fun s => rfl, fun s hr => ?released,
    fun s hr => ⟨releaseReset s, ?release, ?values⟩⟩
  case released => simp [perform, driveReset, hr]
  case release => simp [perform, driveReset, hr]
  case values =>
    have hstatus : (0#16 ++ 0#8 ++ 0#8 : Word) = 0 := by decide
    have hvctrl : vctrlWord { af := 0, dtype := 0, astate := 0, csumok := 0 } = 0 := by decide
    exact ⟨rfl, rfl, rfl, rfl, hstatus, rfl, hvctrl, rfl, rfl, rfl, rfl,
      ⟨List.length_replicate, whitelisted_releaseReset s⟩,
      ⟨List.length_replicate, fun _ _ => getElem?_slots_releaseReset⟩, rfl, rfl, fun _ => rfl, rfl, rfl, rfl, rfl⟩

end Sys2Proof.Machine
end
